-- ==== Sys2Proof/Word.lean ====
section
/-! DEFINITION. The word types of the hardware: bytes, 32-bit lanes and byte strings (00_scope R14, R15). -/

namespace Sys2Proof

/-- A byte: an unsigned 8-bit value (00_scope R14). -/
abbrev Byte := BitVec 8

/-- A lane: an unsigned 32-bit value (00_scope R14). -/
abbrev Lane := BitVec 32

/-- A byte string, byte 0 first (00_scope R15). -/
abbrev ByteString := List (BitVec 8)

end Sys2Proof
end

