-- ==== Sys2Proof/Syntax.lean ====
section
/-! DEFINITION. The instructions: one constructor for every row of spec/opcode_table.json
(the eight commands of 30_encoding R86, the ten micro-operations of R90, the three
pseudo-commands of R92), with the operands as the rules take them. -/

namespace Sys2Proof

/-- The eight commands of the controller, without operands (30_encoding R86). -/
inductive CmdKind where
  | initHash | initKeyed | absorb | squeeze | encrypt | decrypt | squeezeTag | verifyTag
  deriving DecidableEq, Repr

/-- An operation of the hardware. Byte strings and lengths are abstract operands of any size
(30_encoding R85); what the encoding can carry is said in `Instr.wellFormed`. -/
inductive Instr where
  /-- INIT_HASH, 42_duplex_commands R150. -/
  | initHash
  /-- INIT_KEYED(key, nonce), R151. -/
  | initKeyed (key nonce : ByteString)
  /-- ABSORB(X), R153. -/
  | absorb (x : ByteString)
  /-- SQUEEZE(l), R154. -/
  | squeeze (l : Nat)
  /-- ENCRYPT(P), R155. -/
  | encrypt (p : ByteString)
  /-- DECRYPT(Cx), R156. -/
  | decrypt (c : ByteString)
  /-- SQUEEZE_TAG, R157. -/
  | squeezeTag
  /-- VERIFY_TAG(T), R158. -/
  | verifyTag (t : ByteString)
  /-- THETA, 40_permutation_engine R111. -/
  | theta
  /-- RHO_WEST, R112. -/
  | rhoWest
  /-- IOTA with the round index `r`, R113. -/
  | iota (r : Fin 12)
  /-- CHI, R114. -/
  | chi
  /-- RHO_EAST, R115. -/
  | rhoEast
  /-- ROUND(r), R116. -/
  | round (r : Fin 12)
  /-- PERMUTE, R117. -/
  | permute
  /-- UP(cu), 41_duplex_primitives R132. -/
  | up (cu : Byte)
  /-- DOWN(X, cd), R133. -/
  | down (x : ByteString) (cd : Byte)
  /-- DOWN_OVR(X, cd), R134. -/
  | downOvr (x : ByteString) (cd : Byte)
  /-- HASH(m), 43_protocol_sequences R180. -/
  | hash (m : ByteString)
  /-- AEAD_ENC(key, nonce, ad, pt), R181. -/
  | aeadEnc (key nonce ad pt : ByteString)
  /-- AEAD_DEC(key, nonce, tag, ad, ct), R182. -/
  | aeadDec (key nonce tag ad ct : ByteString)
  deriving DecidableEq, Repr

/-- The command an operation is, for the eight that travel as frames; `none` for micro-operations
and pseudo-commands, which have no encoding (30_encoding R90, R92). -/
def Instr.command? : Instr → Option CmdKind
  | .initHash => some .initHash
  | .initKeyed _ _ => some .initKeyed
  | .absorb _ => some .absorb
  | .squeeze _ => some .squeeze
  | .encrypt _ => some .encrypt
  | .decrypt _ => some .decrypt
  | .squeezeTag => some .squeezeTag
  | .verifyTag _ => some .verifyTag
  | .theta => none
  | .rhoWest => none
  | .iota _ => none
  | .chi => none
  | .rhoEast => none
  | .round _ => none
  | .permute => none
  | .up _ => none
  | .down _ _ => none
  | .downOvr _ _ => none
  | .hash _ => none
  | .aeadEnc _ _ _ _ => none
  | .aeadDec _ _ _ _ _ => none

/-- The operation is one of the eight commands of 30_encoding R86. -/
abbrev Instr.isCommand (i : Instr) : Bool := i.command?.isSome

/-- The public shape of a command: which command it is and the lengths of its operands, the only
things its control may depend on (42_duplex_commands R162). `none` for what is no command. -/
def Instr.shape : Instr → Option (CmdKind × List Nat)
  | .initHash => some (.initHash, [])
  | .initKeyed k n => some (.initKeyed, [k.length, n.length])
  | .absorb x => some (.absorb, [x.length])
  | .squeeze l => some (.squeeze, [l])
  | .encrypt p => some (.encrypt, [p.length])
  | .decrypt c => some (.decrypt, [c.length])
  | .squeezeTag => some (.squeezeTag, [])
  | .verifyTag t => some (.verifyTag, [t.length])
  | .theta => none
  | .rhoWest => none
  | .iota _ => none
  | .chi => none
  | .rhoEast => none
  | .round _ => none
  | .permute => none
  | .up _ => none
  | .down _ _ => none
  | .downOvr _ _ => none
  | .hash _ => none
  | .aeadEnc _ _ _ _ => none
  | .aeadDec _ _ _ _ _ => none

end Sys2Proof
end

