-- ==== Sys2Proof/Config.lean ====
section
/-! DEFINITION. What an implementation fixes: the profile record of 00_scope R12 and the values the
spec leaves open (opaque constants: nothing can be proved of them). -/

namespace Sys2Proof

/-- MODE, "enumerated Hash, Keyed, fixed at construction and never changed" (10_state R28). -/
inductive Mode where
  | hash | keyed
  deriving DecidableEq, Repr

/-- CRYPT_FEEDBACK: whether ENCRYPT and DECRYPT write the plaintext over the leading bytes
(DOWN_OVR) or XOR it into them (DOWN) (00_scope R10). -/
inductive Feedback where
  | overwrite | xor
  deriving DecidableEq, Repr

/-- The fields of 00_scope R10 and R12 that a model holds as configuration: the four in which the profiles
differ, and R_KOUT. Their values for the three named profiles stand in Sys2Proof/Machine/Tables.lean. -/
structure Profile where
  /-- Keyed absorb rate. -/
  rKabs : Nat
  /-- Keyed encrypt and decrypt rate. -/
  rKcrypt : Nat
  /-- Keyed squeeze rate, not observable: SQUEEZE_TAG and VERIFY_TAG take exactly 16 bytes (90_conflicts C1, log 18). -/
  rKout : Nat
  /-- Domain code of the chunks of an ABSORB after the first. -/
  cdAbsNext : Byte
  cryptFeedback : Feedback
  deriving DecidableEq, Repr

/-- DESIGN CHOICE (log 1): the value of lane register `L_i` after the reset numbered `k` (log 11). The spec
gives none ("unspecified: holds no value", 10_state R39) and forbids to assume one (R40). -/
opaque Config.resetLane : (k i : Nat) → Lane

/-- N_INST minus one: N_INST is open with N_INST at least 1 (00_scope R13, 60_exceptions R212; log 15). -/
opaque Config.extraInstances : Nat

/-- T_PERM, the latency of one PERMUTE: open, read by no rule (00_scope R13, 70_reset R230; log 16). -/
opaque Config.tPerm : Nat

/-- T_CMD, the latency of a command: open, read by no rule. It is a function of MODE, the command and
the operand lengths, as 70_reset R231 allows, and of nothing else (log 16). -/
opaque Config.tCmd : Mode → CmdKind → List Nat → Nat

end Sys2Proof
end

