-- ==== Sys2Proof/Machine/State.lean ====
section
/-! DEFINITION. The state of one instance as plain data (10_state R20 to R40), its reset value
(70_reset R220), and the reasons the model can stop. -/

namespace Sys2Proof.Machine

/-- A plane: 4 lanes, `x0` is lane x = 0 (00_scope R18, 10_state R20). -/
structure Plane where
  x0 : Lane
  x1 : Lane
  x2 : Lane
  x3 : Lane
  deriving DecidableEq, Repr

/-- The state `S`: 12 lane registers as 3 planes; `L_i` is lane `i mod 4` of plane `i div 4` (10_state R20). -/
structure Lanes where
  p0 : Plane
  p1 : Plane
  p2 : Plane
  deriving DecidableEq, Repr

/-- PHASE (10_state R26). -/
inductive Phase where
  | up | down
  deriving DecidableEq, Repr

/-- SEQ, the position in the one permitted sequence of commands (10_state R31); the code 7 is never taken. -/
inductive Seq where
  | idle | hInit | hAbs | kInit | kAd | kCrypt | done
  deriving DecidableEq, Repr

/-- The hardware's own faults (60_exceptions R190). Raising one is a next state with a status byte
(R195), never a stop of the model. -/
inductive Raised where
  | illegalCommand | invalidArgument | sequenceError | modeError
  deriving DecidableEq, Repr

/-- One primitive performed by a command, with what is public of it: the model's own record, as
95_test_vectors section 6 lists the primitives of each command (log 10). -/
inductive Prim where
  /-- UP(cu), so one PERMUTE. -/
  | up (cu : Byte)
  /-- DOWN of a chunk of `n` bytes. -/
  | down (n : Nat) (cd : Byte)
  /-- DOWN_OVR of a chunk of `n` bytes. -/
  | downOvr (n : Nat) (cd : Byte)
  /-- LEAD(n), a read of the leading `n` bytes. -/
  | lead (n : Nat)
  /-- Iteration `i` of VERIFY_TAG's OR accumulation. -/
  | orAcc (i : Nat)
  deriving DecidableEq, Repr

/-- The state of one instance, with its two streams. -/
structure State where
  /-- `S`, the lane registers L_0 .. L_11 (10_state R20). -/
  lanes : Lanes
  /-- PHASE (10_state R26). -/
  phase : Phase
  /-- MODE (10_state R28). -/
  mode : Mode
  /-- SEQ (10_state R31). -/
  seq : Seq
  /-- ERR (10_state R30). -/
  err : Bool
  /-- CAUSE, the code of the first fault (10_state R30). -/
  cause : BitVec 3
  /-- VALID (10_state R29). -/
  valid : Bool
  /-- ACC, the tag accumulator (10_state R35). -/
  acc : Byte
  /-- CHK, the chunk the command in progress is at (10_state R24). -/
  chk : Nat
  /-- RND, the round the engine is in (10_state R24). -/
  rnd : Fin 12
  /-- STEP, the step within the round (10_state R24). -/
  stp : Fin 5
  /-- The staging buffer: the chunk in hand (10_state R37, R39). -/
  staging : ByteString
  /-- A command is in progress (10_state R37, R39). -/
  busy : Bool
  /-- The engine has taken a PERMUTE transaction (30_encoding R90) that is not complete (10_state R24; log 4). -/
  permuting : Bool
  /-- The command stream: bytes sent by the host and not yet consumed, oldest first (10_state R36). -/
  cmdIn : ByteString
  /-- The response stream: bytes produced and not yet taken by the host, oldest first (10_state R36). -/
  respOut : ByteString
  /-- The model's own: the primitives performed, oldest first; nothing reads it (log 10). -/
  trace : List Prim
  /-- The model's own: the number of the latest reset, counted so that no two instances share one; it picks the
  free values of log 1 (log 11). -/
  resets : Nat
  deriving DecidableEq, Repr

/-- Why the model stops with a fault. -/
inductive Fault where
  /-- Raised by DOWN and DOWN_OVR when given a chunk of more than 44 bytes, which 41_duplex_primitives
  R133 and R140 exclude and no command forms (log 6). Safe: the model stops where the spec describes no effect. -/
  | chunkTooLong
  deriving DecidableEq, Repr

/-- Why the model refuses an instruction. -/
inductive Refusal where
  /-- An instruction without a meaning; no arm of `exec` answers with it. Safe. -/
  | notModelled (mnemonic : String)
  deriving DecidableEq, Repr

/-- Twelve registers as planes, `L_i` at index `i = x + 4*y` (10_state R20). -/
def Lanes.ofRegs (f : Nat → Lane) : Lanes :=
  { p0 := { x0 := f 0, x1 := f 1, x2 := f 2, x3 := f 3 }
    p1 := { x0 := f 4, x1 := f 5, x2 := f 6, x3 := f 7 }
    p2 := { x0 := f 8, x1 := f 9, x2 := f 10, x3 := f 11 } }

/-- The state after the reset numbered `k` (10_state R39, 70_reset R220). The lanes hold free values:
"A model must not assume zero" (10_state R40; DESIGN CHOICE, log 1). -/
def State.afterReset (k : Nat) : State :=
  { lanes := Lanes.ofRegs (Config.resetLane k)
    phase := .up
    mode := .hash
    seq := .idle
    err := false
    cause := 0
    valid := false
    acc := 0
    chk := 0
    rnd := 0
    stp := 0
    staging := []
    busy := false
    permuting := false
    cmdIn := []
    respOut := []
    trace := []
    resets := k }

/-- The machine right after the first reset. -/
def State.reset : State := State.afterReset 0

end Sys2Proof.Machine
end

