-- ==== Sys2Proof/Machine/Engine.lean ====
section
/-! DEFINITION. The permutation engine as functions on 12 lanes: the five steps, the round and the
permutation (40_permutation_engine R110 to R117). -/

namespace Sys2Proof.Machine

/-- Left rotation of a lane, bit `z` to bit `(z + n) mod 32` (00_scope R14). -/
def rotl32 (v : Lane) (n : Nat) : Lane :=
  if n = 0 then v else (v <<< n) ||| (v >>> (32 - n))

/-- Lane `x` of a plane; index arithmetic on `Fin 4` is modulo 4 (00_scope R14). -/
def Plane.lane (p : Plane) (x : Fin 4) : Lane :=
  match x with
  | 0 => p.x0
  | 1 => p.x1
  | 2 => p.x2
  | 3 => p.x3

/-- The plane with lane `f x` at position `x`. -/
def Plane.ofLanes (f : Fin 4 → Lane) : Plane :=
  { x0 := f 0, x1 := f 1, x2 := f 2, x3 := f 3 }

/-- `A[y][x]` (00_scope R16). -/
def Lanes.lane (a : Lanes) (y : Fin 3) (x : Fin 4) : Lane :=
  match y with
  | 0 => a.p0.lane x
  | 1 => a.p1.lane x
  | 2 => a.p2.lane x

/-- The state with `f y x` as lane `x` of plane `y`. -/
def Lanes.ofLanes (f : Fin 3 → Fin 4 → Lane) : Lanes :=
  { p0 := Plane.ofLanes (f 0), p1 := Plane.ofLanes (f 1), p2 := Plane.ofLanes (f 2) }

/-- All 48 bytes 0x00 (42_duplex_commands R150). -/
def Lanes.zero : Lanes := Lanes.ofLanes fun _ _ => 0

/-- `P[x]`, the column parity over the three planes (40_permutation_engine R111). -/
def columnParity (a : Lanes) : Plane :=
  Plane.ofLanes fun x => a.lane 0 x ^^^ a.lane 1 x ^^^ a.lane 2 x

/-- `E[x] = rotl32(P[(x-1) mod 4], 5) ^ rotl32(P[(x-1) mod 4], 14)` (R111). -/
def thetaEffect (p : Plane) : Plane :=
  Plane.ofLanes fun x => rotl32 (p.lane (x - 1)) 5 ^^^ rotl32 (p.lane (x - 1)) 14

/-- THETA (R111). -/
def theta (a : Lanes) : Lanes :=
  let e := thetaEffect (columnParity a)
  Lanes.ofLanes fun y x => a.lane y x ^^^ e.lane x

/-- RHO_WEST: plane 1 moves by one lane position, plane 2 rotates by 11 bits (R112). -/
def rhoWest (a : Lanes) : Lanes :=
  { p0 := a.p0
    p1 := Plane.ofLanes fun x => a.lane 1 (x - 1)
    p2 := Plane.ofLanes fun x => rotl32 (a.lane 2 x) 11 }

/-- RC[r], the round constants (R113). -/
def roundConstant (r : Fin 12) : Lane :=
  match r with
  | 0 => 0x00000058
  | 1 => 0x00000038
  | 2 => 0x000003C0
  | 3 => 0x000000D0
  | 4 => 0x00000120
  | 5 => 0x00000014
  | 6 => 0x00000060
  | 7 => 0x0000002C
  | 8 => 0x00000380
  | 9 => 0x000000F0
  | 10 => 0x000001A0
  | 11 => 0x00000012

/-- IOTA: the round constant enters lane `A[0][0]` only (R113). -/
def iota (r : Fin 12) (a : Lanes) : Lanes :=
  { a with p0 := { a.p0 with x0 := a.p0.x0 ^^^ roundConstant r } }

/-- CHI (R114): `B[y][x] = A[y][x] ^ (~A[(y+1) mod 3][x] & A[(y+2) mod 3][x])`. -/
def chi (a : Lanes) : Lanes :=
  Lanes.ofLanes fun y x => a.lane y x ^^^ (~~~(a.lane (y + 1) x) &&& a.lane (y + 2) x)

/-- RHO_EAST: plane 1 rotates by 1 bit, plane 2 moves by two lane positions and rotates by 8 bits (R115). -/
def rhoEast (a : Lanes) : Lanes :=
  { p0 := a.p0
    p1 := Plane.ofLanes fun x => rotl32 (a.lane 1 x) 1
    p2 := Plane.ofLanes fun x => rotl32 (a.lane 2 (x - 2)) 8 }

/-- ROUND(r) (R116). -/
def round (r : Fin 12) (a : Lanes) : Lanes :=
  rhoEast (chi (iota r (rhoWest (theta a))))

/-- The rounds of `rs` one after another. -/
def rounds : List (Fin 12) → Lanes → Lanes
  | [], a => a
  | r :: rs, a => rounds rs (round r a)

/-- The round indices in the order executed, 0 first (R117). -/
def roundOrder : List (Fin 12) := [0, 1, 2, 3, 4, 5, 6, 7, 8, 9, 10, 11]

/-- PERMUTE: 12 rounds, index 0 first (R117). -/
def permute (a : Lanes) : Lanes := rounds roundOrder a

end Sys2Proof.Machine
end

