-- ==== Sys2Proof/Machine/Bytes.lean ====
section
/-! DEFINITION. The byte view SB[0..47] of the lane registers (20_memory R50, 00_scope R16) and the
byte-string operations of the controller (41_duplex_primitives R139). -/

namespace Sys2Proof.Machine

/-- `x[i]`, lane register `L_i` (00_scope R16); an index above 11, which no rule forms, reads as 0 (log 14). -/
def Lanes.reg (a : Lanes) (i : Nat) : Lane :=
  match i with
  | 0 => a.p0.x0
  | 1 => a.p0.x1
  | 2 => a.p0.x2
  | 3 => a.p0.x3
  | 4 => a.p1.x0
  | 5 => a.p1.x1
  | 6 => a.p1.x2
  | 7 => a.p1.x3
  | 8 => a.p2.x0
  | 9 => a.p2.x1
  | 10 => a.p2.x2
  | 11 => a.p2.x3
  | _ => 0

/-- `x[i] <- v` (00_scope R16); an index above 11 writes nothing (log 14). -/
def Lanes.setReg (a : Lanes) (i : Nat) (v : Lane) : Lanes :=
  match i with
  | 0 => { a with p0 := { a.p0 with x0 := v } }
  | 1 => { a with p0 := { a.p0 with x1 := v } }
  | 2 => { a with p0 := { a.p0 with x2 := v } }
  | 3 => { a with p0 := { a.p0 with x3 := v } }
  | 4 => { a with p1 := { a.p1 with x0 := v } }
  | 5 => { a with p1 := { a.p1 with x1 := v } }
  | 6 => { a with p1 := { a.p1 with x2 := v } }
  | 7 => { a with p1 := { a.p1 with x3 := v } }
  | 8 => { a with p2 := { a.p2 with x0 := v } }
  | 9 => { a with p2 := { a.p2 with x1 := v } }
  | 10 => { a with p2 := { a.p2 with x2 := v } }
  | 11 => { a with p2 := { a.p2 with x3 := v } }
  | _ => a

/-- Byte `k` of a lane, least significant first: bits `[8k+7 : 8k]` (20_memory R50). -/
def laneByte (v : Lane) (k : Nat) : Byte := v.extractLsb' (8 * k) 8

/-- The lane with byte `k` replaced (20_memory R50). -/
def setLaneByte (v : Lane) (k : Nat) (b : Byte) : Lane :=
  (v &&& ~~~((0xFF : Lane) <<< (8 * k))) ||| (b.setWidth 32 <<< (8 * k))

/-- State byte `SB[i]`: byte `i mod 4` of lane register `x[i div 4]` (20_memory R50). -/
def Lanes.byte (a : Lanes) (i : Nat) : Byte := laneByte (a.reg (i / 4)) (i % 4)

/-- `SB[i] <- v` (20_memory R50). -/
def Lanes.setByte (a : Lanes) (i : Nat) (v : Byte) : Lanes :=
  a.setReg (i / 4) (setLaneByte (a.reg (i / 4)) (i % 4) v)

/-- MemRead(a, n): the byte string `SB[a] .. SB[a+n-1]` (00_scope R16). -/
def Lanes.memRead (a : Lanes) (start n : Nat) : ByteString :=
  (List.range n).map fun k => a.byte (start + k)

/-- MemWrite: `SB[start+k] <- v[k]` in increasing `k` (00_scope R16). -/
def Lanes.memWrite (a : Lanes) (start : Nat) : ByteString → Lanes
  | [] => a
  | b :: bs => Lanes.memWrite (a.setByte start b) (start + 1) bs

/-- `SB[start+k] <- SB[start+k] ^ v[k]` in increasing `k` (41_duplex_primitives R133). -/
def Lanes.memXor (a : Lanes) (start : Nat) : ByteString → Lanes
  | [] => a
  | b :: bs => Lanes.memXor (a.setByte start (a.byte start ^^^ b)) (start + 1) bs

/-- Bytewise XOR of two byte strings (41_duplex_primitives R139). -/
def xorBytes (x y : ByteString) : ByteString := List.zipWith (· ^^^ ·) x y

end Sys2Proof.Machine
end

