-- ==== Sys2Proof/Machine/Tables.lean ====
section
/-! DEFINITION. The constants of the controller: sizes (00_scope R9), the profiles (R12), the rate
table (41_duplex_primitives R135) and the domain-code table (R136). -/

namespace Sys2Proof.Machine

/-- Profile H, this hardware (00_scope R12). -/
def profileH : Profile :=
  { rKabs := 16, rKcrypt := 16, rKout := 24, cdAbsNext := 0x00, cryptFeedback := .overwrite }

/-- Profile PUB, the published algorithm (00_scope R12). -/
def profilePUB : Profile :=
  { rKabs := 44, rKcrypt := 24, rKout := 24, cdAbsNext := 0x00, cryptFeedback := .xor }

/-- Profile LIT, the document's literals (00_scope R12). -/
def profileLIT : Profile :=
  { rKabs := 16, rKcrypt := 16, rKout := 24, cdAbsNext := 0x03, cryptFeedback := .overwrite }

/-- The profile of the modelled hardware: H (00_scope R12; log 3). -/
def hardware : Profile := profileH

/-- R_HASH (00_scope R9). -/
def rHash : Nat := 16
/-- R_KIN (00_scope R9). -/
def rKin : Nat := 44
/-- KEY_LEN (00_scope R9). -/
def keyLen : Nat := 16
/-- NONCE_LEN (00_scope R9). -/
def nonceLen : Nat := 16
/-- TAG_LEN (00_scope R9). -/
def tagLen : Nat := 16
/-- DIGEST_LEN (00_scope R9). -/
def digestLen : Nat := 32
/-- PAD_BYTE (00_scope R11, 41_duplex_primitives R133). -/
def padByte : Byte := 0x01
/-- DOM_POS, the place of every domain code (00_scope R11, 41_duplex_primitives R133). -/
def domPos : Nat := 47

/-- RATE(MODE, command) (41_duplex_primitives R135, 20_memory R54). A pair without a row, which no
command asks for, has rate 0 (log 18). -/
def rate (p : Profile) : Mode → CmdKind → Nat
  | .hash, .absorb => rHash
  | .hash, .squeeze => rHash
  | .keyed, .initKeyed => rKin
  | .keyed, .absorb => p.rKabs
  | .keyed, .encrypt => p.rKcrypt
  | .keyed, .decrypt => p.rKcrypt
  | .keyed, .squeezeTag => p.rKout
  | .keyed, .verifyTag => p.rKout
  | .hash, .initHash => 0
  | .hash, .initKeyed => 0
  | .hash, .encrypt => 0
  | .hash, .decrypt => 0
  | .hash, .squeezeTag => 0
  | .hash, .verifyTag => 0
  | .keyed, .initHash => 0
  | .keyed, .squeeze => 0

/-- CD_KEY (41_duplex_primitives R136). -/
def cdKey : Byte := 0x02
/-- CD_ABS_FIRST (R136). -/
def cdAbsFirst : Byte := 0x03
/-- CU_CRYPT_FIRST (R136). -/
def cuCryptFirst : Byte := 0x80
/-- CU_CRYPT_NEXT (R136). -/
def cuCryptNext : Byte := 0x00
/-- CD_CRYPT (R136). -/
def cdCrypt : Byte := 0x00
/-- CU_SQUEEZE (R136). -/
def cuSqueeze : Byte := 0x40
/-- CU_BLANK (R136). -/
def cuBlank : Byte := 0x00
/-- CD_BLANK (R136). -/
def cdBlank : Byte := 0x00

/-- The code of chunk `j` of an ABSORB (R136, 42_duplex_commands R153). -/
def cdAbsorb (p : Profile) (j : Nat) : Byte := if j = 0 then cdAbsFirst else p.cdAbsNext

/-- The up-going code before chunk `j` of ENCRYPT and DECRYPT (R136, 42_duplex_commands R155). -/
def cuCrypt (j : Nat) : Byte := if j = 0 then cuCryptFirst else cuCryptNext

end Sys2Proof.Machine
end

