-- ==== Sys2Proof/Machine/Flags.lean ====
section
/-! DEFINITION. The encodings of the flags and the fault codes, the STATUS view, and which commands
are permitted where (10_state R26 to R33, 60_exceptions R190 to R196). -/

namespace Sys2Proof.Machine

/-- The bit that encodes PHASE (10_state R26). -/
def Phase.code : Phase → BitVec 1
  | .up => 0
  | .down => 1

/-- The bit that encodes MODE (10_state R28). -/
def modeCode : Mode → BitVec 1
  | .hash => 0
  | .keyed => 1

/-- The three bits that encode SEQ (10_state R31). -/
def Seq.code : Seq → BitVec 3
  | .idle => 0
  | .hInit => 1
  | .hAbs => 2
  | .kInit => 3
  | .kAd => 4
  | .kCrypt => 5
  | .done => 6

/-- The fault code, the status byte of a faulting command (60_exceptions R190). -/
def Raised.status : Raised → Byte
  | .illegalCommand => 0x01
  | .invalidArgument => 0x02
  | .sequenceError => 0x03
  | .modeError => 0x04

/-- The value recorded in CAUSE: the fault code in three bits (60_exceptions R190). -/
def Raised.cause (f : Raised) : BitVec 3 := f.status.setWidth 3

/-- Status 0x00, success (30_encoding R89). -/
def statusOk : Byte := 0x00

/-- A bit from a truth value. -/
def flagBit (b : Bool) : BitVec 1 := if b then 1 else 0

/-- STATUS, the 16-bit reporting view: [2:0] SEQ, [3] PHASE, [4] MODE, [5] ERR, [8:6] CAUSE, [9] VALID,
[15:10] zero (10_state R33). No command reads or writes it. -/
def State.status (s : State) : BitVec 16 :=
  (0 : BitVec 6) ++ flagBit s.valid ++ s.cause ++ flagBit s.err ++ modeCode s.mode ++ s.phase.code ++ s.seq.code

/-- The command does not exist in the instance's mode (60_exceptions R194, 42_duplex_commands R159 point 4). -/
def wrongMode (q : Seq) (k : CmdKind) : Bool :=
  match q with
  | .idle => false
  | .hInit => k == .encrypt || k == .decrypt || k == .squeezeTag || k == .verifyTag
  | .hAbs => k == .encrypt || k == .decrypt || k == .squeezeTag || k == .verifyTag
  | .kInit => k == .squeeze
  | .kAd => k == .squeeze
  | .kCrypt => k == .squeeze
  | .done => false

/-- The command is listed for the current SEQ (10_state R32). INIT_HASH and INIT_KEYED are listed for every one. -/
def permitted (q : Seq) (k : CmdKind) : Bool :=
  k == .initHash || k == .initKeyed ||
  match q with
  | .idle => false
  | .hInit => k == .absorb
  | .hAbs => k == .absorb || k == .squeeze
  | .kInit => k == .absorb
  | .kAd => k == .absorb || k == .encrypt || k == .decrypt
  | .kCrypt => k == .squeezeTag || k == .verifyTag
  | .done => false

/-- Steps 3 to 5 of the common prologue, for a command other than INIT_HASH and INIT_KEYED: the fault
it meets, the first that applies (42_duplex_commands R159, 60_exceptions R196). -/
def prologueFault (k : CmdKind) (s : State) : Option Raised :=
  if s.err then some .sequenceError
  else if wrongMode s.seq k then some .modeError
  else if permitted s.seq k then none
  else some .sequenceError

/-- VALID is 1 when ACC = 0 (10_state R35, 42_duplex_commands R158). -/
def validOf (acc : Byte) : Bool := acc == 0

/-- The payload byte of VERIFY_TAG, `enc8(VALID)` (42_duplex_commands R158). -/
def validByte (v : Bool) : Byte := if v then 0x01 else 0x00

end Sys2Proof.Machine
end

