-- ==== Sys2Proof/Machine/Operands.lean ====
section
/-! DEFINITION. Operand forms: how an operand byte string is cut into chunks
(41_duplex_primitives R130) and how the key block is put together (42_duplex_commands R152). -/

namespace Sys2Proof.Machine

/-- `ceil(n / r)` (41_duplex_primitives R139). -/
def ceilDiv (n r : Nat) : Nat := (n + r - 1) / r

/-- `X[j*r .. min((j+1)*r, |X|))` (41_duplex_primitives R130). -/
def chunkAt (x : ByteString) (r j : Nat) : ByteString := (x.drop (j * r)).take r

/-- CHUNKS(X, r): one empty chunk for the empty string, else `ceil(|X| / r)` chunks, all full but
possibly the last (41_duplex_primitives R130). -/
def chunks (x : ByteString) (r : Nat) : List ByteString :=
  match x with
  | [] => [[]]
  | _ :: _ => (List.range (ceilDiv x.length r)).map (chunkAt x r)

/-- KEYBLOCK(key, nonce) = key, nonce, one byte with the nonce's length (42_duplex_commands R152). -/
def keyBlock (key nonce : ByteString) : ByteString :=
  key ++ nonce ++ [BitVec.ofNat 8 nonce.length]

end Sys2Proof.Machine
end

