-- ==== Sys2Proof/Machine/Ops.lean ====
section
/-! DEFINITION. The shared operations of the controller over the state: the duplex primitives
(41_duplex_primitives R131 to R137), command boundaries and responses (30_encoding R89), the chunk
loop (10_state R24), and raising a fault (60_exceptions R195). -/

namespace Sys2Proof.Machine

/-! ### Single-field updates -/

/-- `S <- a`. -/
def State.putLanes (a : Lanes) (s : State) : State := { s with lanes := a }
/-- `PHASE <- p` (10_state R26). -/
def State.putPhase (p : Phase) (s : State) : State := { s with phase := p }
/-- `SEQ <- q` (10_state R31). -/
def State.putSeq (q : Seq) (s : State) : State := { s with seq := q }
/-- `ACC <- v` (10_state R35). -/
def State.putAcc (v : Byte) (s : State) : State := { s with acc := v }
/-- `VALID <- b` (10_state R29). -/
def State.putValid (b : Bool) (s : State) : State := { s with valid := b }
/-- `emit(v)`: append to the payload of the current response (00_scope R16). -/
def State.emit (v : ByteString) (s : State) : State := { s with respOut := s.respOut ++ v }
/-- Append one entry to the model's own record of primitives (log 10). -/
def State.note (p : Prim) (s : State) : State := { s with trace := s.trace ++ [p] }
/-- Take `n` bytes off the front of the command stream (30_encoding R84). -/
def State.consume (n : Nat) (s : State) : State := { s with cmdIn := s.cmdIn.drop n }
/-- Take a chunk into the staging buffer (10_state R37). -/
def State.load (c : ByteString) (s : State) : State := { s with staging := c }
/-- The chunk is done: `CHK` advances by one and the staging buffer is empty again (10_state R24, R37). -/
def State.nextChunk (s : State) : State := { s with chk := s.chk + 1, staging := [] }
/-- The sequencer at `(0, 0, 0)`, no PERMUTE under way, the staging buffer empty, `b` saying whether a command is
in progress (10_state R24, R37). -/
def State.sequencer0 (b : Bool) (s : State) : State :=
  { s with chk := 0, rnd := 0, stp := 0, staging := [], busy := b, permuting := false }
/-- The fault record: written only while `ERR = 0`, so the first fault is kept (60_exceptions R195 step 3). -/
def State.recordFault (f : Raised) (s : State) : State :=
  if s.err then s else { s with err := true, cause := f.cause }
/-- What INIT_HASH and INIT_KEYED do alike: `S <- 0`, `PHASE <- Up`, `MODE <- m`, and `ACC`, `VALID`,
`ERR`, `CAUSE` to 0 (42_duplex_commands R150, R151). -/
def State.newInstance (m : Mode) (s : State) : State :=
  { s with lanes := Lanes.zero, phase := .up, mode := m, acc := 0, valid := false, err := false, cause := 0 }

/-! ### Commands and their responses -/

/-- A command begins: the sequencer starts at `(0, 0, 0)`, and the response begins with status 0x00, since
every fault is raised before this point (30_encoding R89, 60_exceptions R195; log 5). -/
def State.beginCommand (s : State) : State := (s.sequencer0 true).emit [statusOk]

/-- A command ends: the sequencer is back at `(0, 0, 0)` and the instance idle (10_state R24, R37). -/
def State.endCommand (s : State) : State := s.sequencer0 false

/-- `raise f` (60_exceptions R195): the fault record, a response of the status byte alone, the sequencer at
`(0, 0, 0)`; nothing else changes. The frame, payload included, was consumed when it was fetched. -/
def raise (f : Raised) (s : State) : State :=
  ((s.recordFault f).emit [f.status]).endCommand

/-- A command that has passed its checks: begin, body, end. -/
def complete (body : State → State) (s : State) : State := (body s.beginCommand).endCommand

/-- The common prologue and then the body, for a command other than INIT_HASH and INIT_KEYED
(42_duplex_commands R159 points 3 to 6). -/
def guarded (k : CmdKind) (body : State → State) (s : State) : State :=
  match prologueFault k s with
  | some f => raise f s
  | none => body s

/-! ### Duplex primitives -/

/-- State byte `SB[i]` (20_memory R50). -/
def State.byte (s : State) (i : Nat) : Byte := s.lanes.byte i

/-- LEAD(n) (41_duplex_primitives R137). -/
def lead (n : Nat) (s : State) : ByteString := s.lanes.memRead 0 n

/-- The lanes on which UP calls PERMUTE: in Keyed mode the code `cu` enters byte 47 first
(41_duplex_primitives R132). -/
def upInject (m : Mode) (cu : Byte) (a : Lanes) : Lanes :=
  match m with
  | .keyed => a.setByte domPos (a.byte domPos ^^^ cu)
  | .hash => a

/-- UP(cu) (41_duplex_primitives R132). -/
def up (cu : Byte) (s : State) : State :=
  ((s.putLanes (permute (upInject s.mode cu s.lanes))).putPhase .up).note (.up cu)

/-- The down-going code as it is injected: in Hash mode only its bit 0 (41_duplex_primitives R133). -/
def downCode (m : Mode) (cd : Byte) : Byte :=
  match m with
  | .hash => cd &&& 0x01
  | .keyed => cd

/-- Pad at offset `n`, then the code `c` at byte 47 (41_duplex_primitives R133). -/
def padAndCode (n : Nat) (c : Byte) (a : Lanes) : Lanes :=
  let b := a.setByte n (a.byte n ^^^ padByte)
  b.setByte domPos (b.byte domPos ^^^ c)

/-- DOWN(X, cd) (41_duplex_primitives R133). -/
def down (x : ByteString) (cd : Byte) (s : State) : State :=
  ((s.putLanes (padAndCode x.length (downCode s.mode cd) (s.lanes.memXor 0 x))).putPhase .down).note
    (.down x.length cd)

/-- DOWN_OVR(X, cd): the chunk replaces the leading bytes (41_duplex_primitives R134; "MODE is Keyed
wherever DOWN_OVR is used", so its pseudocode injects `cd` in full, log 20). -/
def downOvr (x : ByteString) (cd : Byte) (s : State) : State :=
  ((s.putLanes (padAndCode x.length cd (s.lanes.memWrite 0 x))).putPhase .down).note
    (.downOvr x.length cd)

/-- ENSURE_UP (41_duplex_primitives R131). -/
def ensureUp (s : State) : State :=
  match s.phase with
  | .down => up cuBlank s
  | .up => s

/-- Read the leading `n` bytes and put them in the response (41_duplex_primitives R137). -/
def emitLead (n : Nat) (s : State) : State := (s.emit (lead n s)).note (.lead n)

/-! ### Loops over chunks and blocks -/

/-- Handle the chunks one after another: each is staged, `body` handles it and may look at `CHK`, then
`CHK` advances (10_state R24, 41_duplex_primitives R130). -/
def eachChunk (body : State → State) : List ByteString → State → State
  | [], s => s
  | c :: cs, s => eachChunk body cs (body (s.load c)).nextChunk

/-- ABSORB's handling of the staged chunk (42_duplex_commands R153). -/
def absorbChunk (p : Profile) (s : State) : State :=
  down s.staging (cdAbsorb p s.chk) (ensureUp s)

/-- Which way a crypt command goes. -/
inductive Direction where
  | encrypt | decrypt
  deriving DecidableEq, Repr

/-- Write the plaintext chunk back (42_duplex_commands R155, R156, by CRYPT_FEEDBACK). -/
def feedBack (p : Profile) (x : ByteString) (s : State) : State :=
  match p.cryptFeedback with
  | .overwrite => downOvr x cdCrypt s
  | .xor => down x cdCrypt s

/-- The string a crypt command feeds back: the plaintext chunk, which is the input for ENCRYPT and the
output for DECRYPT (42_duplex_commands R155, R156). -/
def plaintextOf (d : Direction) (input output : ByteString) : ByteString :=
  match d with
  | .encrypt => input
  | .decrypt => output

/-- ENCRYPT's and DECRYPT's handling of the staged chunk: UP, keystream, output, feedback
(42_duplex_commands R155, R156). -/
def cryptChunk (p : Profile) (d : Direction) (s : State) : State :=
  let u := up (cuCrypt s.chk) s
  let ks := lead s.staging.length u
  let o := xorBytes s.staging ks
  feedBack p (plaintextOf d s.staging o) ((u.note (.lead s.staging.length)).emit o)

/-- SQUEEZE's further blocks: `k` of them, `remaining` bytes still to emit (42_duplex_commands R154). -/
def squeezeBlocks : (k remaining : Nat) → State → State
  | 0, _, s => s
  | k + 1, remaining, s =>
    squeezeBlocks k (remaining - min remaining rHash)
      (emitLead (min remaining rHash) (up cuBlank (down [] cdBlank s)))

/-- One iteration of VERIFY_TAG's accumulation, `ACC <- ACC | (SB[i] ^ T[i])` (42_duplex_commands R158). -/
def orAccStep (a : Lanes) (t : ByteString) (acc : Byte) (i : Nat) : Byte := acc ||| (a.byte i ^^^ t.getD i 0)

/-- All 16 iterations of the accumulation, which "always run" and write ACC only (42_duplex_commands R158). -/
def accumulate (t : ByteString) (s : State) : State :=
  { s with
    acc := (List.range tagLen).foldl (orAccStep s.lanes t) s.acc
    trace := s.trace ++ (List.range tagLen).map .orAcc }

/-! ### Bodies of the commands, over a profile -/

/-- INIT_HASH (42_duplex_commands R150). -/
def initHashBody (s : State) : State := (s.newInstance .hash).putSeq .hInit

/-- INIT_KEYED after its argument check (42_duplex_commands R151). -/
def initKeyedBody (key nonce : ByteString) (s : State) : State :=
  (down (keyBlock key nonce) cdKey (s.newInstance .keyed)).putSeq .kInit

/-- ABSORB (42_duplex_commands R153). -/
def absorbBody (p : Profile) (x : ByteString) (s : State) : State :=
  let t := eachChunk (absorbChunk p) (chunks x (rate p s.mode .absorb)) s
  t.putSeq (match s.mode with | .hash => .hAbs | .keyed => .kAd)

/-- SQUEEZE (42_duplex_commands R154). -/
def squeezeBody (p : Profile) (l : Nat) (s : State) : State :=
  let r := rate p .hash .squeeze
  let first := min l r
  (squeezeBlocks (ceilDiv (l - first) r) (l - first) (emitLead first (up cuSqueeze s))).putSeq .done

/-- ENCRYPT (42_duplex_commands R155). -/
def encryptBody (p : Profile) (x : ByteString) (s : State) : State :=
  (eachChunk (cryptChunk p .encrypt) (chunks x (rate p .keyed .encrypt)) s).putSeq .kCrypt

/-- DECRYPT (42_duplex_commands R156). -/
def decryptBody (p : Profile) (x : ByteString) (s : State) : State :=
  (eachChunk (cryptChunk p .decrypt) (chunks x (rate p .keyed .decrypt)) s).putSeq .kCrypt

/-- SQUEEZE_TAG (42_duplex_commands R157). -/
def squeezeTagBody (s : State) : State := (emitLead tagLen (up cuSqueeze s)).putSeq .done

/-- VERIFY_TAG's end: `VALID <- (ACC = 0)`, the payload byte, `SEQ <- DONE` (42_duplex_commands R158). -/
def finishVerify (s : State) : State :=
  ((s.putValid (validOf s.acc)).emit [validByte (validOf s.acc)]).putSeq .done

/-- VERIFY_TAG after its argument check (42_duplex_commands R158). -/
def verifyTagBody (t : ByteString) (s : State) : State :=
  finishVerify (accumulate t ((up cuSqueeze s).putAcc 0))

end Sys2Proof.Machine
end

