-- ==== Sys2Proof/Machine/Duplex.lean ====
section
/-! DEFINITION. The controller micro-operations as instructions (41_duplex_primitives R132 to R134). -/

namespace Sys2Proof.Machine

open Host (Outcome)

/-- UP(cu) (R132). -/
def execUp (cu : Byte) (s : State) : Outcome State Fault Refusal := .next (up cu s)

/-- DOWN(X, cd) (R133); its chunk has at most 44 bytes (R133, R140; log 6). -/
def execDown (x : ByteString) (cd : Byte) (s : State) : Outcome State Fault Refusal :=
  if x.length ≤ rKin then .next (down x cd s) else .fault .chunkTooLong

/-- DOWN_OVR(X, cd) (R134); its chunk has at most 44 bytes (R140; log 6). -/
def execDownOvr (x : ByteString) (cd : Byte) (s : State) : Outcome State Fault Refusal :=
  if x.length ≤ rKin then .next (downOvr x cd s) else .fault .chunkTooLong

end Sys2Proof.Machine
end

