-- ==== Sys2Proof/Machine/EngineOps.lean ====
section
/-! DEFINITION. The engine micro-operations as instructions: each writes the lane registers and nothing
else (40_permutation_engine R111 to R117; 10_state R30: they "write lane registers only"). The sequencer
that chooses them stands in Sys2Proof/Machine/Sequencer.lean (log 4). -/

namespace Sys2Proof.Machine

open Host (Outcome)

/-- THETA (R111). -/
def execTheta (s : State) : Outcome State Fault Refusal := .next (s.putLanes (theta s.lanes))

/-- RHO_WEST (R112). -/
def execRhoWest (s : State) : Outcome State Fault Refusal := .next (s.putLanes (rhoWest s.lanes))

/-- IOTA with round index `r` (R113). -/
def execIota (r : Fin 12) (s : State) : Outcome State Fault Refusal := .next (s.putLanes (iota r s.lanes))

/-- CHI (R114). -/
def execChi (s : State) : Outcome State Fault Refusal := .next (s.putLanes (chi s.lanes))

/-- RHO_EAST (R115). -/
def execRhoEast (s : State) : Outcome State Fault Refusal := .next (s.putLanes (rhoEast s.lanes))

/-- ROUND(r) (R116). -/
def execRound (r : Fin 12) (s : State) : Outcome State Fault Refusal := .next (s.putLanes (round r s.lanes))

/-- PERMUTE (R117): it replaces `S`; "`PHASE` is written by UP and not by the engine". -/
def execPermute (s : State) : Outcome State Fault Refusal := .next (s.putLanes (permute s.lanes))

end Sys2Proof.Machine
end

