-- ==== Sys2Proof/Machine/Commands.lean ====
section
/-! DEFINITION. The eight commands, whole, after their frame is consumed (42_duplex_commands R150 to
R159), over a profile, and as instructions of this hardware (profile H). -/

namespace Sys2Proof.Machine

open Host (Outcome)

/-- INIT_HASH: accepted in every state (42_duplex_commands R150, R159 point 2). -/
def initHashCmd (s : State) : State := complete initHashBody s

/-- INIT_KEYED: its argument check is its only one (42_duplex_commands R151, R159 point 2). -/
def initKeyedCmd (key nonce : ByteString) (s : State) : State :=
  if key.length = keyLen ∧ nonce.length = nonceLen then complete (initKeyedBody key nonce) s
  else raise .invalidArgument s

/-- ABSORB (42_duplex_commands R153). -/
def absorbCmd (p : Profile) (x : ByteString) (s : State) : State :=
  guarded .absorb (complete (absorbBody p x)) s

/-- SQUEEZE (42_duplex_commands R154). -/
def squeezeCmd (p : Profile) (l : Nat) (s : State) : State :=
  guarded .squeeze (complete (squeezeBody p l)) s

/-- ENCRYPT (42_duplex_commands R155). -/
def encryptCmd (p : Profile) (x : ByteString) (s : State) : State :=
  guarded .encrypt (complete (encryptBody p x)) s

/-- DECRYPT (42_duplex_commands R156). -/
def decryptCmd (p : Profile) (x : ByteString) (s : State) : State :=
  guarded .decrypt (complete (decryptBody p x)) s

/-- SQUEEZE_TAG (42_duplex_commands R157). -/
def squeezeTagCmd (s : State) : State := guarded .squeezeTag (complete squeezeTagBody) s

/-- VERIFY_TAG: after the prologue, its length check (42_duplex_commands R158). -/
def verifyTagCmd (t : ByteString) (s : State) : State :=
  guarded .verifyTag
    (fun a => if t.length = tagLen then complete (verifyTagBody t) a else raise .invalidArgument a) s

/-- INIT_HASH as an instruction. -/
def execInitHash (s : State) : Outcome State Fault Refusal := .next (initHashCmd s)

/-- INIT_KEYED as an instruction. -/
def execInitKeyed (key nonce : ByteString) (s : State) : Outcome State Fault Refusal :=
  .next (initKeyedCmd key nonce s)

/-- ABSORB as an instruction. -/
def execAbsorb (x : ByteString) (s : State) : Outcome State Fault Refusal := .next (absorbCmd hardware x s)

/-- SQUEEZE as an instruction. -/
def execSqueeze (l : Nat) (s : State) : Outcome State Fault Refusal := .next (squeezeCmd hardware l s)

/-- ENCRYPT as an instruction. -/
def execEncrypt (x : ByteString) (s : State) : Outcome State Fault Refusal := .next (encryptCmd hardware x s)

/-- DECRYPT as an instruction. -/
def execDecrypt (x : ByteString) (s : State) : Outcome State Fault Refusal := .next (decryptCmd hardware x s)

/-- SQUEEZE_TAG as an instruction. -/
def execSqueezeTag (s : State) : Outcome State Fault Refusal := .next (squeezeTagCmd s)

/-- VERIFY_TAG as an instruction. -/
def execVerifyTag (t : ByteString) (s : State) : Outcome State Fault Refusal := .next (verifyTagCmd t s)

end Sys2Proof.Machine
end

