-- ==== Sys2Proof/Machine/Protocol.lean ====
section
/-! DEFINITION. The pseudo-commands: the three command sequences of 43_protocol_sequences R180 to R182
with the host's argument checks (R183), and what the host makes of the responses (R184). -/

namespace Sys2Proof.Machine

open Host (Outcome)

/-- HASH(m): INIT_HASH, ABSORB m, SQUEEZE 32 (R180). -/
def hashSeq (p : Profile) (m : ByteString) (s : State) : State :=
  squeezeCmd p digestLen (absorbCmd p m (initHashCmd s))

/-- The commands of AEAD_ENC: INIT_KEYED, ABSORB, ENCRYPT, SQUEEZE_TAG (R181). -/
def aeadEncSeq (p : Profile) (key nonce ad pt : ByteString) (s : State) : State :=
  squeezeTagCmd (encryptCmd p pt (absorbCmd p ad (initKeyedCmd key nonce s)))

/-- The commands of AEAD_DEC: INIT_KEYED, ABSORB, DECRYPT, VERIFY_TAG (R182). -/
def aeadDecSeq (p : Profile) (key nonce tag ad ct : ByteString) (s : State) : State :=
  verifyTagCmd tag (decryptCmd p ct (absorbCmd p ad (initKeyedCmd key nonce s)))

/-- The host's argument check before AEAD_ENC (R181, R183). -/
def encArgumentsOk (key nonce : ByteString) : Bool :=
  key.length == keyLen && nonce.length == nonceLen

/-- The host's argument check before AEAD_DEC (R182, R183). -/
def decArgumentsOk (key nonce tag : ByteString) : Bool :=
  encArgumentsOk key nonce && tag.length == tagLen

/-- HASH as an instruction (R180, R92). -/
def execHash (m : ByteString) (s : State) : Outcome State Fault Refusal := .next (hashSeq hardware m s)

/-- AEAD_ENC as an instruction: with a wrong length the host reports it and issues nothing, so the
hardware is unchanged (R181, R183; log 7). -/
def execAeadEnc (key nonce ad pt : ByteString) (s : State) : Outcome State Fault Refusal :=
  .next (if encArgumentsOk key nonce then aeadEncSeq hardware key nonce ad pt s else s)

/-- AEAD_DEC as an instruction: with a wrong length the host reports it and issues nothing, so the
hardware is unchanged (R182, R183; log 7). -/
def execAeadDec (key nonce tag ad ct : ByteString) (s : State) : Outcome State Fault Refusal :=
  .next (if decArgumentsOk key nonce tag then aeadDecSeq hardware key nonce tag ad ct s else s)

/-! ### What the host returns to its caller -/

/-- The bytes `t` has answered beyond those of `s`. -/
def answered (s t : State) : ByteString := t.respOut.drop s.respOut.length

/-- HASH's result: the payload of the third response, after three status bytes (R180). -/
def hashResult (p : Profile) (m : ByteString) (s : State) : ByteString :=
  (answered s (hashSeq p m s)).drop 3

/-- AEAD_ENC's result `(ct, tag)`; `none` reports invalid-argument (R181, R183). -/
def aeadEncResult (p : Profile) (key nonce ad pt : ByteString) (s : State) : Option (ByteString × ByteString) :=
  if encArgumentsOk key nonce then
    let out := (answered s (aeadEncSeq p key nonce ad pt s)).drop 3
    some (out.take pt.length, out.drop (pt.length + 1))
  else none

/-- AEAD_DEC's result `(valid, pt)` as the hardware answers it; `none` reports invalid-argument (R182, R183). -/
def aeadDecResult (p : Profile) (key nonce tag ad ct : ByteString) (s : State) : Option (Bool × ByteString) :=
  if decArgumentsOk key nonce tag then
    let out := (answered s (aeadDecSeq p key nonce tag ad ct s)).drop 3
    some (out.drop (ct.length + 1) == [validByte true], out.take ct.length)
  else none

/-- What a host that does its duty keeps of a decryption: the plaintext only when the tag was valid
(R184, 70_reset_and_hazards R226; log 8). -/
def hostKeeps (valid : Bool) (pt : ByteString) : ByteString := if valid then pt else []

end Sys2Proof.Machine
end

