-- ==== Sys2Proof/Machine/Dispatch.lean ====
section
/-! DEFINITION. The dispatch: one arm per constructor of `Instr`, each one call of its meaning. -/

namespace Sys2Proof.Machine

def exec (i : Instr) (s : State) : Host.Outcome State Fault Refusal :=
  match i with
  | .initHash => Sys2Proof.Machine.execInitHash s
  | .initKeyed key nonce => Sys2Proof.Machine.execInitKeyed key nonce s
  | .absorb x => Sys2Proof.Machine.execAbsorb x s
  | .squeeze l => Sys2Proof.Machine.execSqueeze l s
  | .encrypt p => Sys2Proof.Machine.execEncrypt p s
  | .decrypt c => Sys2Proof.Machine.execDecrypt c s
  | .squeezeTag => Sys2Proof.Machine.execSqueezeTag s
  | .verifyTag t => Sys2Proof.Machine.execVerifyTag t s
  | .theta => Sys2Proof.Machine.execTheta s
  | .rhoWest => Sys2Proof.Machine.execRhoWest s
  | .iota r => Sys2Proof.Machine.execIota r s
  | .chi => Sys2Proof.Machine.execChi s
  | .rhoEast => Sys2Proof.Machine.execRhoEast s
  | .round r => Sys2Proof.Machine.execRound r s
  | .permute => Sys2Proof.Machine.execPermute s
  | .up cu => Sys2Proof.Machine.execUp cu s
  | .down x cd => Sys2Proof.Machine.execDown x cd s
  | .downOvr x cd => Sys2Proof.Machine.execDownOvr x cd s
  | .hash m => Sys2Proof.Machine.execHash m s
  | .aeadEnc key nonce ad pt => Sys2Proof.Machine.execAeadEnc key nonce ad pt s
  | .aeadDec key nonce tag ad ct => Sys2Proof.Machine.execAeadDec key nonce tag ad ct s

end Sys2Proof.Machine
end

