-- ==== Sys2Proof/WellFormed.lean ====
section
/-! DEFINITION. Well-formed operations: the operand sizes that the encoding carries
(30_encoding R82, R83, R85) and the chunk size that DOWN and DOWN_OVR require
(41_duplex_primitives R133, R140). -/

namespace Sys2Proof

/-- The length fits the 32-bit `len` field (30_encoding R85: "a length of 2^32 or more has no encoding"). -/
abbrev fitsLen (n : Nat) : Bool := decide (n < 2 ^ 32)

/-- The length fits an 8-bit `klen` or `nlen` field (30_encoding R83). -/
abbrev fitsByte (n : Nat) : Bool := decide (n < 2 ^ 8)

/-- The longest chunk: no rate exceeds R_KIN = 44 (41_duplex_primitives R135). -/
abbrev maxChunk : Nat := 44

/-- What an operation's operands must satisfy. For a command: its frame exists. For a
micro-operation: its precondition. For a pseudo-command: each command of its expansion has a frame
(its key, nonce and tag are checked by the host instead, 43_protocol_sequences R183). -/
def Instr.wellFormed : Instr → Bool
  | .initHash => true
  | .initKeyed key nonce => fitsByte key.length && fitsByte nonce.length
  | .absorb x => fitsLen x.length
  | .squeeze l => fitsLen l
  | .encrypt p => fitsLen p.length
  | .decrypt c => fitsLen c.length
  | .squeezeTag => true
  | .verifyTag t => fitsLen t.length
  | .theta => true
  | .rhoWest => true
  | .iota _ => true
  | .chi => true
  | .rhoEast => true
  | .round _ => true
  | .permute => true
  | .up _ => true
  | .down x _ => decide (x.length ≤ maxChunk)
  | .downOvr x _ => decide (x.length ≤ maxChunk)
  | .hash m => fitsLen m.length
  | .aeadEnc _ _ ad pt => fitsLen ad.length && fitsLen pt.length
  | .aeadDec _ _ _ ad ct => fitsLen ad.length && fitsLen ct.length

end Sys2Proof
end

