-- ==== Sys2Proof/Decode.lean ====
section
/-! DEFINITION. The frame decoder and encoder of the command stream (30_encoding R80 to R87, R93). -/

namespace Sys2Proof

/-- The three frame formats (30_encoding R81, R82, R83). -/
inductive Format where
  | N | L | K
  deriving DecidableEq, Repr

/-- Why a header is illegal (30_encoding R87, 60_exceptions R191). -/
inductive IllegalHeader where
  /-- The first byte is 0x00 or 0x09 to 0xFF. -/
  | reservedOpcode (op : Byte)
  /-- The opcode is known and its `zero` field is not 0. -/
  | nonzeroZeroField (k : CmdKind)
  deriving DecidableEq, Repr

/-- The verdict on the front of the command stream (30_encoding R93). Lengths are the bytes the frame takes. -/
inductive Decoded where
  | command (i : Instr) (len : Nat)
  | illegal (why : IllegalHeader) (len : Nat)
  /-- The stream ends inside a header or a payload, or is empty. -/
  | incomplete
  deriving DecidableEq, Repr

/-- The opcode of each command (30_encoding R86). -/
def opcodeOf : CmdKind → Byte
  | .initHash => 0x01
  | .initKeyed => 0x02
  | .absorb => 0x03
  | .squeeze => 0x04
  | .encrypt => 0x05
  | .decrypt => 0x06
  | .squeezeTag => 0x07
  | .verifyTag => 0x08

/-- The command of an opcode; `none` for a reserved one (30_encoding R86, R87). -/
def commandOf (op : Byte) : Option CmdKind :=
  match op.toNat with
  | 1 => some .initHash
  | 2 => some .initKeyed
  | 3 => some .absorb
  | 4 => some .squeeze
  | 5 => some .encrypt
  | 6 => some .decrypt
  | 7 => some .squeezeTag
  | 8 => some .verifyTag
  | _ => none

/-- The format of each command (30_encoding R86). -/
def formatOf : CmdKind → Format
  | .initHash => .N
  | .initKeyed => .K
  | .absorb => .L
  | .squeeze => .L
  | .encrypt => .L
  | .decrypt => .L
  | .squeezeTag => .N
  | .verifyTag => .L

/-- Header length in bytes: 4 for N and K, 8 for L (30_encoding R84). -/
def Format.headerBytes : Format → Nat
  | .N => 4
  | .L => 8
  | .K => 4

/-- The number a little-endian byte string stands for: stream byte 0 is least significant (30_encoding R84, R85). -/
def leNat : ByteString → Nat
  | [] => 0
  | b :: bs => b.toNat + 256 * leNat bs

/-- The `n` bytes of a number, least significant first. -/
def leBytes : (n v : Nat) → ByteString
  | 0, _ => []
  | n + 1, v => BitVec.ofNat 8 v :: leBytes n (v / 256)

/-- The header word `W` of a format: its header bytes, zero above them (30_encoding R84). -/
def headerWord (f : Format) (bs : ByteString) : BitVec 64 :=
  BitVec.ofNat 64 (leNat (bs.take f.headerBytes))

/-- The field `W[hi:lo]` as an unsigned number (00_scope R14). -/
def field (w : BitVec 64) (hi lo : Nat) : Nat := (w.extractLsb' lo (hi - lo + 1)).toNat

/-- The `zero` field of the header (30_encoding R81, R82, R83). -/
def zeroField : Format → BitVec 64 → Nat
  | .N, w => field w 31 8
  | .L, w => field w 31 8
  | .K, w => field w 31 24

/-- `len`, W[63:32] of format L (30_encoding R82). -/
def lenField (w : BitVec 64) : Nat := field w 63 32
/-- `klen`, W[15:8] of format K (30_encoding R83). -/
def klenField (w : BitVec 64) : Nat := field w 15 8
/-- `nlen`, W[23:16] of format K (30_encoding R83). -/
def nlenField (w : BitVec 64) : Nat := field w 23 16

/-- How many payload bytes a header announces: 0 for N, `klen + nlen` for K, `len` for L except
SQUEEZE where it is 0 (30_encoding R84). -/
def payloadBytes (k : CmdKind) (w : BitVec 64) : Nat :=
  match k with
  | .initHash => 0
  | .initKeyed => klenField w + nlenField w
  | .absorb => lenField w
  | .squeeze => 0
  | .encrypt => lenField w
  | .decrypt => lenField w
  | .squeezeTag => 0
  | .verifyTag => lenField w

/-- The command a legal header and its payload stand for (30_encoding R85, R86). -/
def assemble (k : CmdKind) (w : BitVec 64) (payload : ByteString) : Instr :=
  match k with
  | .initHash => .initHash
  | .initKeyed => .initKeyed (payload.take (klenField w)) (payload.drop (klenField w))
  | .absorb => .absorb payload
  | .squeeze => .squeeze (lenField w)
  | .encrypt => .encrypt payload
  | .decrypt => .decrypt payload
  | .squeezeTag => .squeezeTag
  | .verifyTag => .verifyTag payload

/-- Decode a frame of a known opcode at the front of the stream: wait for the header, then for the
payload it announces, then look at the `zero` field (30_encoding R84, R93; 60_exceptions R191: a
frame with a wrong `zero` field is consumed whole). -/
def decodeKnown (k : CmdKind) (bs : ByteString) : Decoded :=
  let h := (formatOf k).headerBytes
  let w := headerWord (formatOf k) bs
  let n := h + payloadBytes k w
  if bs.length < h then .incomplete
  else if bs.length < n then .incomplete
  else if zeroField (formatOf k) w = 0 then .command (assemble k w ((bs.take n).drop h)) n
  else .illegal (.nonzeroZeroField k) n

/-- The decoder, total on any bytes (30_encoding R93). A reserved opcode is a 4-byte frame with no
payload (30_encoding R87). -/
def decode (bs : ByteString) : Decoded :=
  match bs with
  | [] => .incomplete
  | op :: _ =>
    match commandOf op with
    | some k => decodeKnown k bs
    | none => if bs.length < 4 then .incomplete else .illegal (.reservedOpcode op) 4

/-- Header of format N (30_encoding R81). -/
def headerN (k : CmdKind) : ByteString := leBytes 4 (opcodeOf k).toNat
/-- Header of format L: opcode, three zero bytes, `len` (30_encoding R82). -/
def headerL (k : CmdKind) (len : Nat) : ByteString := leBytes 4 (opcodeOf k).toNat ++ leBytes 4 len
/-- Header of format K: opcode, `klen`, `nlen`, a zero byte (30_encoding R83). -/
def headerK (k : CmdKind) (klen nlen : Nat) : ByteString :=
  [opcodeOf k, BitVec.ofNat 8 klen, BitVec.ofNat 8 nlen, 0]

/-- The frame of a well-formed command (30_encoding R80 to R86); `none` for an operation without a frame. -/
def encode (i : Instr) : Option ByteString :=
  if i.wellFormed then
    match i with
    | .initHash => some (headerN .initHash)
    | .initKeyed key nonce => some (headerK .initKeyed key.length nonce.length ++ key ++ nonce)
    | .absorb x => some (headerL .absorb x.length ++ x)
    | .squeeze l => some (headerL .squeeze l)
    | .encrypt p => some (headerL .encrypt p.length ++ p)
    | .decrypt c => some (headerL .decrypt c.length ++ c)
    | .squeezeTag => some (headerN .squeezeTag)
    | .verifyTag t => some (headerL .verifyTag t.length ++ t)
    | .theta => none
    | .rhoWest => none
    | .iota _ => none
    | .chi => none
    | .rhoEast => none
    | .round _ => none
    | .permute => none
    | .up _ => none
    | .down _ _ => none
    | .downOvr _ _ => none
    | .hash _ => none
    | .aeadEnc _ _ _ _ => none
    | .aeadDec _ _ _ _ _ => none
  else none

/-- How many bytes the frame at the front of the stream takes, read from its first 8 bytes
(30_encoding R84; 4 for a reserved opcode, R87). -/
def announcedBytes (bs : ByteString) : Nat :=
  match bs with
  | [] => 0
  | op :: _ =>
    match commandOf op with
    | some k => (formatOf k).headerBytes + payloadBytes k (headerWord (formatOf k) bs)
    | none => 4

/-- The whole frame whose first `nbits` bits are `w` and whose other bits are 0, payload bytes included
(log 19). -/
def frameOfWord (nbits w : Nat) : ByteString :=
  let front := leBytes ((nbits + 7) / 8) (w % 2 ^ nbits)
  let n := announcedBytes (front ++ List.replicate 8 0)
  (front ++ List.replicate (n - front.length) 0).take n

/-- The command the decoder reads from the frame whose first `nbits` bits are `w`, all others 0. -/
def decodeTableWord (nbits w : Nat) : Option Instr :=
  match decode (frameOfWord nbits w) with
  | .command i _ => some i
  | .illegal _ _ => none
  | .incomplete => none

end Sys2Proof
end

