-- ==== Sys2Proof/Machine/Fetch.lean ====
section
/-! DEFINITION. Taking frames from the command stream (30_encoding R84, R87, R93). -/

namespace Sys2Proof.Machine

/-- The verdict of the decoder on the front of the command stream. -/
def fetch (s : State) : Decoded := decode s.cmdIn

/-- An illegal frame of `n` bytes: consumed, then IllegalCommand is raised (60_exceptions R191). -/
def rejectFrame (n : Nat) (s : State) : State := raise .illegalCommand (s.consume n)

/-- The command stream holding exactly the frame whose first `nbits` bits are `w`, other bits 0. -/
def State.placeFrame (nbits w : Nat) (s : State) : State := { s with cmdIn := frameOfWord nbits w }

end Sys2Proof.Machine
end

