-- ==== Sys2Proof/Machine/Step.lean ====
section
/-! DEFINITION. One step: one command taken whole (00_scope R7). -/

namespace Sys2Proof.Machine

/-- One step of the controller: consume the frame at the front of the command stream and run its
command; an illegal frame raises IllegalCommand; while the frame is incomplete the controller waits
and nothing changes (30_encoding R93; log 9). -/
def step (s : State) : Host.Outcome State Fault Refusal :=
  match fetch s with
  | .command i n => exec i (s.consume n)
  | .illegal _ n => .next (rejectFrame n s)
  | .incomplete => .next s

/-- `s` with the frame whose first `nbits` bits are `w`, all others 0, as all that the command stream
holds: the host's sending of that frame (log 2, log 19). -/
def State.withFetchWord (s : State) (nbits w : Nat) : State := s.placeFrame nbits w

end Sys2Proof.Machine
end

