-- ==== Sys2Proof/Machine/HostPort.lean ====
section
/-! DEFINITION. What the host can do between steps (70_reset_and_hazards R220, R232): send command
bytes, take response bytes, apply reset. It can do nothing else (30_encoding R88). -/

namespace Sys2Proof.Machine

/-- An action of the host at the instance's boundary. -/
inductive HostEvent where
  /-- Bytes enter the command stream, first byte first. -/
  | send (bytes : ByteString)
  /-- The host takes up to `n` bytes from the front of the response stream. -/
  | take (n : Nat)
  /-- The reset event. -/
  | reset
  deriving DecidableEq, Repr

/-- The host sends bytes (30_encoding R80). -/
def hostSend (bytes : ByteString) (s : State) : State := { s with cmdIn := s.cmdIn ++ bytes }

/-- The host takes response bytes (log 12). -/
def hostTake (n : Nat) (s : State) : State := { s with respOut := s.respOut.drop n }

/-- N_INST, open and at least 1 (00_scope R13; log 15). -/
def instanceCount : Nat := Config.extraInstances + 1

/-- The reset event: every value of 10_state R39, with fresh free values in the lanes (70_reset R220; log 1). DESIGN
CHOICE (log 11): an instance's resets are numbered `N_INST` apart, so that the numbers of different instances never meet. -/
def applyReset (s : State) : State := State.afterReset (s.resets + instanceCount)

/-- The state after an action of the host. -/
def hostEvent (e : HostEvent) (s : State) : State :=
  match e with
  | .send bytes => hostSend bytes s
  | .take n => hostTake n s
  | .reset => applyReset s

end Sys2Proof.Machine
end

