-- ==== Sys2Proof/Machine/Instances.lean ====
section
/-! DEFINITION. Several instances side by side: each has its own state and streams, and they share
nothing (60_exceptions R212). -/

namespace Sys2Proof.Machine

/-- All instances after reset: reset brings all of them to the values of 10_state R39 (60_exceptions R212), each with
lane values of its own: instance `j` takes reset number `j` (DESIGN CHOICE, log 11, log 15). -/
def resetInstances : List State := (List.range instanceCount).map State.afterReset

/-- Instance `k` takes one step; one that stops, or that does not exist, leaves the list as it was. -/
def stepInstance (k : Nat) (is : List State) : List State :=
  match is[k]? with
  | some s =>
    match step s with
    | .next t => is.set k t
    | .fault _ => is
    | .refused _ => is
  | none => is

/-- The reset event reaches every instance (60_exceptions R212); instances with different reset numbers have different
ones afterwards, so their lanes stay unrelated (DESIGN CHOICE, log 11, log 15). -/
def resetAll (is : List State) : List State := is.map applyReset

end Sys2Proof.Machine
end

