-- ==== Sys2Proof/Machine/Sequencer.lean ====
section
/-! DEFINITION. The engine's sequencer: PERMUTE refined into its 60 micro-operations, with
`(RND, STEP)` in the state (10_state R24, R25; 40_permutation_engine R120; log 4). The transaction step
does not use it. -/

namespace Sys2Proof.Machine

/-- The micro-operation the sequencer selects (30_encoding R90). -/
def selected (s : State) : Instr :=
  match s.stp with
  | 0 => .theta
  | 1 => .rhoWest
  | 2 => .iota s.rnd
  | 3 => .chi
  | 4 => .rhoEast

/-- UP's request for one PERMUTE: the engine takes it at RND = 0, STEP = 0, and only while a command is in progress
(10_state R24, 30_encoding R90). -/
def engineStart (s : State) : State :=
  if s.busy then { s with permuting := true, rnd := 0, stp := 0 } else s

/-- The sequencer exists: a command is in progress and its PERMUTE is not complete (10_state R24). -/
def State.engineRuns (s : State) : Bool := s.busy && s.permuting

/-- The engine stands at the last micro-operation of a PERMUTE: `RND = 11, STEP = 4` (10_state R24). -/
def atLastStep (s : State) : Bool := s.stp == 4 && s.rnd == 11

/-- The sequencer moves on: STEP 0 to 4, then RND by one with STEP 0; after RND = 11, STEP = 4 the permutation is
complete, with no wrap-around: the engine stops, and the position is put back to (0, 0) (10_state R24; log 4). -/
def advance (s : State) : State :=
  if atLastStep s then { s with permuting := false, rnd := 0, stp := 0 }
  else if s.stp = 4 then { s with rnd := s.rnd + 1, stp := 0 }
  else { s with stp := s.stp + 1 }

/-- One micro-operation of the engine, then the sequencer moves on; an engine that is not running does nothing. -/
def engineTick (s : State) : Host.Outcome State Fault Refusal :=
  if s.engineRuns then
    match exec (selected s) s with
    | .next t => .next (advance t)
    | .fault f => .fault f
    | .refused r => .refused r
  else .next s

/-- `n` micro-operations. -/
def engineTicks : Nat → State → Host.Outcome State Fault Refusal
  | 0, s => .next s
  | n + 1, s =>
    match engineTick s with
    | .next t => engineTicks n t
    | .fault f => .fault f
    | .refused r => .refused r

/-- Instructions one after another, stopping at the first fault or refusal. -/
def execAll : List Instr → State → Host.Outcome State Fault Refusal
  | [], s => .next s
  | i :: is, s =>
    match exec i s with
    | .next t => execAll is t
    | .fault f => .fault f
    | .refused r => .refused r

end Sys2Proof.Machine
end

