-- ==== Sys2Proof/Safety.lean ====
section
/-! DEFINITION. The terms that claims use: the invariant of the states between commands, equal public
control, and counts on the record of primitives. -/

namespace Sys2Proof.Machine

/-- The instance stands at a command boundary: sequencer `(0, 0, 0)`, staging buffer empty, idle
(10_state R24, R37). -/
structure State.AtBoundary (s : State) : Prop where
  chk : s.chk = 0
  rnd : s.rnd = 0
  stp : s.stp = 0
  staging : s.staging = []
  idle : s.busy = false
  engineIdle : s.permuting = false

/-- PHASE and MODE as the position in the command sequence has them: Up after reset and after
INIT_HASH, Down after the other INIT, ABSORB, ENCRYPT and DECRYPT, Up after SQUEEZE, SQUEEZE_TAG and VERIFY_TAG
(10_state R27, R31, R39). -/
def phaseModeFit : Seq → Phase → Mode → Prop
  | .idle, p, m => p = .up ∧ m = .hash
  | .hInit, p, m => p = .up ∧ m = .hash
  | .hAbs, p, m => p = .down ∧ m = .hash
  | .kInit, p, m => p = .down ∧ m = .keyed
  | .kAd, p, m => p = .down ∧ m = .keyed
  | .kCrypt, p, m => p = .down ∧ m = .keyed
  | .done, p, _ => p = .up

/-- The invariant of every state between commands. -/
structure State.Inv (s : State) : Prop where
  boundary : s.AtBoundary
  phaseMode : phaseModeFit s.seq s.phase s.mode
  /-- CAUSE is 0 while ERR = 0 (10_state R30). -/
  noCause : s.err = false → s.cause = 0
  /-- With ERR = 1, CAUSE is one of the codes 1 to 4 (60_exceptions R190). -/
  someCause : s.err = true → ∃ f : Raised, s.cause = f.cause
  /-- ACC and VALID are 0 except after a VERIFY_TAG, which ends the sequence of a Keyed instance (93 V6). -/
  accOnlyAfterVerify : s.acc ≠ 0 → s.seq = .done ∧ s.mode = .keyed
  /-- VALID = 1 says that ACC = 0 at the end of a VERIFY_TAG (10_state R29, R35). -/
  validOnlyAfterVerify : s.valid = true → s.acc = 0 ∧ s.seq = .done ∧ s.mode = .keyed

/-- The public control of an instance: what a command's control may depend on besides operand lengths
(42_duplex_commands R162; ERR decides whether a command runs at all, 60_exceptions R197). -/
def State.control (s : State) : Mode × Seq × Phase × Bool := (s.mode, s.seq, s.phase, s.err)

/-- The entry is an UP, so one PERMUTE. -/
def Prim.isUp : Prim → Bool
  | .up _ => true
  | .down _ _ => false
  | .downOvr _ _ => false
  | .lead _ => false
  | .orAcc _ => false

/-- How many permutations the instance has performed since reset, counted on the model's own record (log 10). -/
def State.permutations (s : State) : Nat := s.trace.countP Prim.isUp

/-- A state with nothing of an old instance or of the fault record changed: what `raise` keeps
(60_exceptions R195). -/
structure SameInstance (s t : State) : Prop where
  lanes : t.lanes = s.lanes
  phase : t.phase = s.phase
  mode : t.mode = s.mode
  seq : t.seq = s.seq
  acc : t.acc = s.acc
  valid : t.valid = s.valid

/-- No command forms an offset outside the 48 state bytes, nor runs one chunk past 44 bytes: the rates by which the
profile cuts chunks are at least 1 and at most 44 (41_duplex_primitives R135, R140). -/
def ratesFit (p : Profile) : Prop :=
  1 ≤ p.rKabs ∧ p.rKabs ≤ 44 ∧ 1 ≤ p.rKcrypt ∧ p.rKcrypt ≤ 44

/-- The stream ends inside a header or a payload, or is empty (30_encoding R93): by opcode, header length and announced
payload length (R84, R87), whatever the `zero` field holds. The two length bytes of format K are stream bytes 1 and 2,
the `len` of format L stream bytes 4 to 7. -/
def EndsInsideFrame (bs : ByteString) : Prop :=
  let op := bs.getD 0 0
  bs = [] ∨
  (op = 0x00 ∨ 0x09 ≤ op.toNat) ∧ bs.length < 4 ∨
  (op = 0x01 ∨ op = 0x07) ∧ bs.length < 4 ∨
  op = 0x02 ∧ (bs.length < 4 ∨ bs.length < 4 + (bs.getD 1 0).toNat + (bs.getD 2 0).toNat) ∨
  (op = 0x03 ∨ op = 0x05 ∨ op = 0x06 ∨ op = 0x08) ∧
    (bs.length < 8 ∨ bs.length < 8 + leNat ((bs.drop 4).take 4)) ∨
  op = 0x04 ∧ bs.length < 8

/-- How many payload bytes the response of a successful command has (30_encoding R86); 0 for what is no command. -/
def responseBytes : Instr → Nat
  | .initHash => 0
  | .initKeyed _ _ => 0
  | .absorb _ => 0
  | .squeeze l => l
  | .encrypt p => p.length
  | .decrypt c => c.length
  | .squeezeTag => 16
  | .verifyTag _ => 1
  | .theta => 0
  | .rhoWest => 0
  | .iota _ => 0
  | .chi => 0
  | .rhoEast => 0
  | .round _ => 0
  | .permute => 0
  | .up _ => 0
  | .down _ _ => 0
  | .downOvr _ _ => 0
  | .hash _ => 0
  | .aeadEnc _ _ _ _ => 0
  | .aeadDec _ _ _ _ _ => 0

/-- The table of 10_state R32, row by row: the SEQ after an accepted command; `none` where the table has no row. -/
def nextSeq : Seq → CmdKind → Option Seq
  | _, .initHash => some .hInit
  | _, .initKeyed => some .kInit
  | .hInit, .absorb => some .hAbs
  | .hAbs, .absorb => some .hAbs
  | .hAbs, .squeeze => some .done
  | .kInit, .absorb => some .kAd
  | .kAd, .absorb => some .kAd
  | .kAd, .encrypt => some .kCrypt
  | .kAd, .decrypt => some .kCrypt
  | .kCrypt, .squeezeTag => some .done
  | .kCrypt, .verifyTag => some .done
  | _, _ => none

/-- The operand lengths of a command that checks them: 16-byte key, nonce and tag (60_exceptions R192). -/
def argumentsOk : Instr → Bool
  | .initKeyed key nonce => key.length == 16 && nonce.length == 16
  | .verifyTag t => t.length == 16
  | _ => true

/-- A Hash-mode sequence: INIT_HASH, any number of ABSORBs, one SQUEEZE (10_state R32). -/
def hashModeRun (p : Profile) (ms : List ByteString) (l : Nat) (s : State) : State :=
  squeezeCmd p l (ms.foldl (fun t m => absorbCmd p m t) (initHashCmd s))

/-- The expansion of a pseudo-command (30_encoding R92); empty for every other operation. -/
def expansion : Instr → List Instr
  | .hash m => [.initHash, .absorb m, .squeeze 32]
  | .aeadEnc key nonce ad pt => [.initKeyed key nonce, .absorb ad, .encrypt pt, .squeezeTag]
  | .aeadDec key nonce tag ad ct => [.initKeyed key nonce, .absorb ad, .decrypt ct, .verifyTag tag]
  | _ => []

/-- The lengths a host checks before it issues a pseudo-command's first frame (43_protocol_sequences R183). -/
def hostLengthsOk : Instr → Bool
  | .aeadEnc key nonce _ _ => key.length == 16 && nonce.length == 16
  | .aeadDec key nonce tag _ _ => key.length == 16 && nonce.length == 16 && tag.length == 16
  | _ => true

/-- The micro-operations of an ABSORB of the given chunks, from a phase (42_duplex_commands R153,
profile H): UP(0x00) wherever PHASE is Down, then DOWN with 0x03 for the first chunk and 0x00 for the others. -/
def absorbMicroOps (phase : Phase) (code : Byte) : List ByteString → List Instr
  | [] => []
  | c :: cs =>
    (match phase with | .down => [Instr.up 0x00] | .up => []) ++ .down c code :: absorbMicroOps .down 0x00 cs

/-- The micro-operations of an ENCRYPT of the given chunks (42_duplex_commands R155, profile H): UP with
0x80 before the first chunk and 0x00 before the others, then DOWN_OVR of the plaintext chunk. -/
def encryptMicroOps (code : Byte) : List ByteString → List Instr
  | [] => []
  | c :: cs => .up code :: .downOvr c 0x00 :: encryptMicroOps 0x00 cs

/-- The micro-operations of a SQUEEZE with `k` blocks after the first (42_duplex_commands R154). -/
def squeezeMicroOps (k : Nat) : List Instr :=
  .up 0x40 :: (List.replicate k [Instr.down [] 0x00, .up 0x00]).flatten

/-- Bit `b` of byte `i` of a byte string, flipped. -/
def flipBit (x : ByteString) (i b : Nat) : ByteString :=
  x.set i (x.getD i 0 ^^^ (1#8 <<< b))

end Sys2Proof.Machine
end

