-- ==== Sys2Proof/Certificates/Slice0/Obligations.lean ====
section
/-! DEFINITION. The statements for the provers. Each docstring says which rules of spec/ it formalises. -/

open Sys2Proof Sys2Proof.Machine

/-! ### Frames -/

/-- DECODE AND ENCODE AGREE (30_encoding R80 to R86): every well-formed command has a frame, and the decoder
reads it back, whatever bytes follow. -/
def Obligations.DecodeOfEncodeIsTheCommand : Prop :=
  ∀ i : Instr, i.isCommand = true → i.wellFormed = true →
    ∃ bytes, encode i = some bytes ∧ ∀ rest, decode (bytes ++ rest) = .command i bytes.length

/-- The other direction: the bytes the decoder took for a command are that command's frame (30_encoding R84, R85). -/
def Obligations.EncodeOfDecodeIsTheFrame : Prop :=
  ∀ (bs : ByteString) (i : Instr) (n : Nat), decode bs = .command i n → encode i = some (bs.take n)

/-- 60_exceptions R191: a reserved opcode takes 4 bytes, a known opcode with a non-zero `zero` field takes
its whole frame, payload included; IllegalCommand is raised in every state, whatever the command and ERR. -/
def Obligations.IllegalFramesRaiseIllegalCommand : Prop :=
  ∀ s : State,
    (∀ (op b1 b2 b3 : Byte) (rest : ByteString), (op = 0 ∨ 9 ≤ op.toNat) → s.cmdIn = op :: b1 :: b2 :: b3 :: rest →
      step s = .next (raise .illegalCommand { s with cmdIn := rest })) ∧
    (∀ (op b1 b2 b3 : Byte) (rest : ByteString), (op = 0x01 ∨ op = 0x07) → ¬ (b1 = 0 ∧ b2 = 0 ∧ b3 = 0) →
      s.cmdIn = op :: b1 :: b2 :: b3 :: rest →
      step s = .next (raise .illegalCommand { s with cmdIn := rest })) ∧
    (∀ (klen nlen z : Byte) (payload rest : ByteString), z ≠ 0 → payload.length = klen.toNat + nlen.toNat →
      s.cmdIn = 0x02 :: klen :: nlen :: z :: (payload ++ rest) →
      step s = .next (raise .illegalCommand { s with cmdIn := rest })) ∧
    (∀ (op b1 b2 b3 : Byte) (payload rest : ByteString),
      (op = 0x03 ∨ op = 0x05 ∨ op = 0x06 ∨ op = 0x08) → ¬ (b1 = 0 ∧ b2 = 0 ∧ b3 = 0) → payload.length < 2 ^ 32 →
      s.cmdIn = op :: b1 :: b2 :: b3 :: (leBytes 4 payload.length ++ payload ++ rest) →
      step s = .next (raise .illegalCommand { s with cmdIn := rest })) ∧
    (∀ (b1 b2 b3 l0 l1 l2 l3 : Byte) (rest : ByteString), ¬ (b1 = 0 ∧ b2 = 0 ∧ b3 = 0) →
      s.cmdIn = 0x04 :: b1 :: b2 :: b3 :: l0 :: l1 :: l2 :: l3 :: rest →
      step s = .next (raise .illegalCommand { s with cmdIn := rest }))

/-- 30_encoding R93, R84, R87: a stream that ends inside any header or payload, also of a frame whose `zero` field is not
0 (log 22) or of a reserved opcode, is incomplete, and no other stream is; the controller waits: no response and no
change. Every proper prefix of a command's frame is such a stream. That the wait, which 93 U4 calls stuck, is a step to
the unchanged state is log 9. -/
def Obligations.IncompleteFrameWaits : Prop :=
  (∀ bs : ByteString, EndsInsideFrame bs ↔ decode bs = .incomplete) ∧
  (∀ s : State, EndsInsideFrame s.cmdIn → step s = .next s) ∧
  (∀ (i : Instr) (bytes : ByteString) (n : Nat) (s : State),
    encode i = some bytes → n < bytes.length → s.cmdIn = bytes.take n → step s = .next s)

/-- Frames written out from 30_encoding R81 to R86 decode to the commands they stand for. -/
def Obligations.SpecFramesDecode : Prop :=
  decode [0x01, 0x00, 0x00, 0x00] = .command .initHash 4 ∧
  decode [0x02, 0x01, 0x02, 0x00, 0xAA, 0xBB, 0xCC] = .command (.initKeyed [0xAA] [0xBB, 0xCC]) 7 ∧
  decode [0x03, 0x00, 0x00, 0x00, 0x03, 0x00, 0x00, 0x00, 0x61, 0x62, 0x63] = .command (.absorb [0x61, 0x62, 0x63]) 11 ∧
  decode [0x04, 0x00, 0x00, 0x00, 0x20, 0x01, 0x00, 0x00] = .command (.squeeze 288) 8 ∧
  decode [0x07, 0x00, 0x00, 0x00] = .command .squeezeTag 4 ∧
  decode [0x08, 0x00, 0x00, 0x00, 0x01, 0x00, 0x00, 0x00, 0x12] = .command (.verifyTag [0x12]) 9

/-- 30_encoding R90, R92: only commands have frames; micro-operations and pseudo-commands have none. -/
def Obligations.OnlyCommandsHaveFrames : Prop :=
  ∀ i : Instr, (encode i).isSome = (i.isCommand && i.wellFormed)

/-! ### The step -/

/-- A step runs the decoded command on the state whose command stream is past its frame. -/
def Obligations.StepRunsTheDecodedCommand : Prop :=
  ∀ (s : State) (i : Instr) (n : Nat), decode s.cmdIn = .command i n →
    step s = exec i { s with cmdIn := s.cmdIn.drop n }

/-- No step stops. "Nothing in this hardware has the treatment "undefined behaviour": for every state and every byte
sequence on the command stream the rules give exactly one next state and one response sequence, or (U4) no progress."
(93_implementation_defined, end of part 1). That no progress (U4, an incomplete frame) is a next state equal to the state
before is the model's reading, log 9. -/
def Obligations.StepAlwaysAnswersANextState : Prop :=
  ∀ s : State, ∃ t, step s = .next t

/-- The invariant of the states between commands (10_state R24, R27, R30, R31, R35) is kept by every step. -/
def Obligations.StepKeepsTheInvariant : Prop :=
  ∀ s t : State, s.Inv → step s = .next t → t.Inv

/-- Reset meets the invariant. -/
def Obligations.ResetMeetsTheInvariant : Prop :=
  State.reset.Inv

/-- The values of 10_state R39 after any reset event, from any state; the lanes are left open. -/
def Obligations.ResetLeavesTheSpecValues : Prop :=
  ∀ s t : State, (t = State.reset ∨ t = hostEvent .reset s) →
    t.phase = .up ∧ t.mode = .hash ∧ t.seq = .idle ∧ t.err = false ∧ t.cause = 0 ∧ t.valid = false ∧ t.acc = 0 ∧
    t.chk = 0 ∧ t.rnd = 0 ∧ t.stp = 0 ∧ t.staging = [] ∧ t.busy = false ∧ t.permuting = false ∧ t.cmdIn = [] ∧ t.respOut = []

/-- 30_encoding R89: every command produces one response, a status byte followed by a payload: the payload of
R86 with status 0x00, and none with a fault code. -/
def Obligations.EveryCommandAnswersOneResponse : Prop :=
  ∀ (i : Instr) (s : State), i.isCommand = true →
    ∃ t status payload, exec i s = .next t ∧ t.respOut = s.respOut ++ status :: payload ∧
      (status = 0x00 → payload.length = responseBytes i) ∧
      (status ≠ 0x00 → payload = [] ∧ ∃ f : Raised, status = f.status)

/-- 20_memory R61, R62: a step on a whole frame is the same whether or not the host has already sent more. -/
def Obligations.LaterBytesDoNotChangeAStep : Prop :=
  ∀ (s t : State) (more : ByteString), decode s.cmdIn ≠ .incomplete → step s = .next t →
    step (hostSend more s) = .next (hostSend more t)

/-! ### The permutation engine -/

/-- 40_permutation_engine R111, THETA: the parity of the column to the left, rotated by 5 and by 14, enters
every lane; nothing but the lanes changes. -/
def Obligations.ThetaXorsTheColumnParity : Prop :=
  ∀ s : State, ∃ t, exec .theta s = .next t ∧ t = { s with lanes := t.lanes } ∧
    ∀ (y : Fin 3) (x : Fin 4), t.lanes.lane y x =
      s.lanes.lane y x ^^^
        ((s.lanes.lane 0 (x - 1) ^^^ s.lanes.lane 1 (x - 1) ^^^ s.lanes.lane 2 (x - 1)).rotateLeft 5 ^^^
         (s.lanes.lane 0 (x - 1) ^^^ s.lanes.lane 1 (x - 1) ^^^ s.lanes.lane 2 (x - 1)).rotateLeft 14)

/-- 40_permutation_engine R112, RHO_WEST; nothing but the lanes changes. -/
def Obligations.RhoWestMovesThePlanes : Prop :=
  ∀ s : State, ∃ t, exec .rhoWest s = .next t ∧ t = { s with lanes := t.lanes } ∧
    ∀ x : Fin 4, t.lanes.lane 0 x = s.lanes.lane 0 x ∧ t.lanes.lane 1 x = s.lanes.lane 1 (x - 1) ∧
      t.lanes.lane 2 x = (s.lanes.lane 2 x).rotateLeft 11

/-- 40_permutation_engine R113, IOTA: RC[r] enters lane A[0][0]; no other lane and nothing else changes. -/
def Obligations.IotaAddsTheRoundConstant : Prop :=
  ∀ (r : Fin 12) (s : State), ∃ t, exec (.iota r) s = .next t ∧ t = { s with lanes := t.lanes } ∧
    t.lanes.lane 0 0 = s.lanes.lane 0 0 ^^^
      (([0x058, 0x038, 0x3C0, 0x0D0, 0x120, 0x014, 0x060, 0x02C, 0x380, 0x0F0, 0x1A0, 0x012] : List Lane).getD r 0) ∧
    ∀ (y : Fin 3) (x : Fin 4), ¬ (y = 0 ∧ x = 0) → t.lanes.lane y x = s.lanes.lane y x

/-- 40_permutation_engine R114, CHI; nothing but the lanes changes. -/
def Obligations.ChiMixesThePlanes : Prop :=
  ∀ s : State, ∃ t, exec .chi s = .next t ∧ t = { s with lanes := t.lanes } ∧
    ∀ x : Fin 4,
      t.lanes.lane 0 x = s.lanes.lane 0 x ^^^ (~~~ s.lanes.lane 1 x &&& s.lanes.lane 2 x) ∧
      t.lanes.lane 1 x = s.lanes.lane 1 x ^^^ (~~~ s.lanes.lane 2 x &&& s.lanes.lane 0 x) ∧
      t.lanes.lane 2 x = s.lanes.lane 2 x ^^^ (~~~ s.lanes.lane 0 x &&& s.lanes.lane 1 x)

/-- 40_permutation_engine R115, RHO_EAST; nothing but the lanes changes. -/
def Obligations.RhoEastMovesThePlanes : Prop :=
  ∀ s : State, ∃ t, exec .rhoEast s = .next t ∧ t = { s with lanes := t.lanes } ∧
    ∀ x : Fin 4, t.lanes.lane 0 x = s.lanes.lane 0 x ∧ t.lanes.lane 1 x = (s.lanes.lane 1 x).rotateLeft 1 ∧
      t.lanes.lane 2 x = (s.lanes.lane 2 (x - 2)).rotateLeft 8

/-- 40_permutation_engine R116: a round is its five steps in order, and changes the lanes only. -/
def Obligations.RoundIsItsFiveSteps : Prop :=
  ∀ (r : Fin 12) (s : State), ∃ t, exec (.round r) s = .next t ∧ t = { s with lanes := t.lanes } ∧
    execAll [.theta, .rhoWest, .iota r, .chi, .rhoEast] s = .next t

/-- 40_permutation_engine R117: PERMUTE is the rounds 0 to 11 in order, and changes the lanes only. -/
def Obligations.PermuteIsTwelveRounds : Prop :=
  ∀ s : State, ∃ t, exec .permute s = .next t ∧ t = { s with lanes := t.lanes } ∧
    execAll [.round 0, .round 1, .round 2, .round 3, .round 4, .round 5, .round 6, .round 7, .round 8, .round 9,
      .round 10, .round 11] s = .next t

/-- 10_state R24, 30_encoding R90: once a command in progress starts the engine, the sequencer stands at RND = r,
STEP = k after 5 * r + k micro-operations, with the rounds 0 to r - 1 done at STEP 0; after 60 the permutation is
complete, PERMUTE's result stands in the lanes, and any further tick changes nothing: no wrap-around. Without a command in
progress or a PERMUTE under way a tick does nothing. PHASE, CHK and the rest are untouched. That (RND, STEP) is put back
to (0, 0) on completion, and the field `permuting`, are the model's (log 4). -/
def Obligations.SequencerTicksRunThePermutation : Prop :=
  (∀ s : State, s.busy = true →
    (∀ (r : Fin 12) (k : Fin 5), ∃ t, engineTicks (5 * r.val + k.val) (engineStart s) = .next t ∧
      t = { s with lanes := t.lanes, permuting := true, rnd := r, stp := k } ∧
      (k = 0 → t.lanes = rounds (roundOrder.take r.val) s.lanes)) ∧
    ∃ u, exec .permute s = .next u ∧
      ∀ n, 60 ≤ n → engineTicks n (engineStart s) = .next { u with permuting := false, rnd := 0, stp := 0 }) ∧
  (∀ s : State, s.busy = false ∨ s.permuting = false → engineTick s = .next s) ∧
  (∀ s : State, s.busy = false → engineStart s = s)

/-- The permutation is "invertible" (40_permutation_engine R110, 00_scope R18). -/
def Obligations.PermuteIsInvertible : Prop :=
  Function.Bijective permute

/-! ### The byte view -/

/-- 20_memory R50: byte `b` of lane `x` of plane `y` is state byte `16*y + 4*x + b`, least significant first;
equivalently the lane is its four bytes put together. -/
def Obligations.ByteViewIsLittleEndian : Prop :=
  ∀ (s : State) (y : Fin 3) (x : Fin 4),
    (∀ b : Fin 4, s.byte (16 * y.val + 4 * x.val + b.val) = (s.lanes.lane y x).extractLsb' (8 * b.val) 8) ∧
    s.lanes.lane y x =
      (s.byte (16 * y.val + 4 * x.val)).setWidth 32 |||
      (s.byte (16 * y.val + 4 * x.val + 1)).setWidth 32 <<< 8 |||
      (s.byte (16 * y.val + 4 * x.val + 2)).setWidth 32 <<< 16 |||
      (s.byte (16 * y.val + 4 * x.val + 3)).setWidth 32 <<< 24

/-! ### The duplex primitives -/

/-- 41_duplex_primitives R130: CHUNKS cuts a string into ceil(|X| / r) pieces of r bytes, the last of 1 to r
bytes, and an empty string into one empty piece. -/
def Obligations.ChunksCutTheString : Prop :=
  ∀ (x : ByteString) (r : Nat), 1 ≤ r →
    (chunks x r).flatten = x ∧ (x = [] → chunks x r = [[]]) ∧
    (x ≠ [] → (chunks x r).length = (x.length + r - 1) / r ∧
      ∀ (j : Nat) (c : ByteString), (chunks x r)[j]? = some c →
        c = (x.take (min ((j + 1) * r) x.length)).drop (j * r) ∧ 1 ≤ c.length ∧ c.length ≤ r ∧
        (j + 1 < (chunks x r).length → c.length = r))

/-- 41_duplex_primitives R132, UP(cu): in Keyed mode the code enters byte 47, then PERMUTE, then PHASE is Up;
in Hash mode no code enters. Nothing else changes but the model's own record (log 10). -/
def Obligations.UpInjectsAndPermutes : Prop :=
  ∀ (cu : Byte) (s : State), ∃ t, exec (.up cu) s = .next t ∧
    t = { s with lanes := t.lanes, phase := .up, trace := s.trace ++ [.up cu] } ∧
    ∃ a : Lanes, t.lanes = permute a ∧ ∀ i < 48,
      a.byte i = if s.mode = .keyed ∧ i = 47 then s.byte 47 ^^^ cu else s.byte i

/-- 41_duplex_primitives R133, DOWN(X, cd), byte by byte as R138 lists it: the chunk is XORed into the leading
bytes, 0x01 into the byte behind it, the code (in Hash mode its bit 0) into byte 47, every other byte is
unchanged; PHASE is Down; nothing else changes but the model's own record (log 10). -/
def Obligations.DownXorsTheChunk : Prop :=
  ∀ (x : ByteString) (cd : Byte) (s : State), x.length ≤ 44 → ∃ t, exec (.down x cd) s = .next t ∧
    t = { s with lanes := t.lanes, phase := .down, trace := s.trace ++ [.down x.length cd] } ∧
    ∀ i < 48, t.byte i =
      if i < x.length then s.byte i ^^^ x.getD i 0
      else if i = x.length then s.byte i ^^^ 0x01
      else if i = 47 then s.byte i ^^^ (if s.mode = .hash then cd &&& 0x01 else cd)
      else s.byte i

/-- 41_duplex_primitives R134, DOWN_OVR(X, cd), byte by byte as R138 lists it: the chunk replaces the leading
bytes, the rest as DOWN with the code in full. That the code is in full when MODE = Hash too, where no command uses
DOWN_OVR, is log 20; the entry on the model's own record is log 10. -/
def Obligations.DownOvrOverwritesTheChunk : Prop :=
  ∀ (x : ByteString) (cd : Byte) (s : State), x.length ≤ 44 → ∃ t, exec (.downOvr x cd) s = .next t ∧
    t = { s with lanes := t.lanes, phase := .down, trace := s.trace ++ [.downOvr x.length cd] } ∧
    ∀ i < 48, t.byte i =
      if i < x.length then x.getD i 0
      else if i = x.length then s.byte i ^^^ 0x01
      else if i = 47 then s.byte i ^^^ cd
      else s.byte i

/-- The model's choice (log 6): DOWN and DOWN_OVR given a chunk that 41_duplex_primitives R133 excludes stop
with the model's own fault. -/
def Obligations.OverlongChunkStops : Prop :=
  ∀ (x : ByteString) (cd : Byte) (s : State), 44 < x.length →
    exec (.down x cd) s = .fault .chunkTooLong ∧ exec (.downOvr x cd) s = .fault .chunkTooLong

/-! ### The commands -/

/-- 42_duplex_commands R150, INIT_HASH in every state: 48 zero bytes, the fault record cleared, SEQ = H_INIT,
response 0x00; nothing else changes. -/
def Obligations.InitHashStartsAZeroInstance : Prop :=
  ∀ s : State, ∃ t, exec .initHash s = .next t ∧ (∀ i < 48, t.byte i = 0) ∧
    t = { s with
      lanes := t.lanes
      phase := .up
      mode := .hash
      seq := .hInit
      err := false
      cause := 0
      valid := false
      acc := 0
      chk := 0
      rnd := 0
      stp := 0
      staging := []
      busy := false
      permuting := false
      respOut := s.respOut ++ [0x00] }

/-- 42_duplex_commands R151, R152, INIT_KEYED: with a 16-byte key and nonce, in every state, the key block stands
in a zero state with padding and code; with another length, InvalidArgument. That the key absorb is listed on the model's
own record as its DOWN of 33 bytes is log 10. -/
def Obligations.InitKeyedAbsorbsTheKeyBlock : Prop :=
  ∀ (key nonce : ByteString) (s : State),
    (key.length = 16 → nonce.length = 16 → ∃ t, exec (.initKeyed key nonce) s = .next t ∧
      (∀ i < 16, t.byte i = key.getD i 0 ∧ t.byte (16 + i) = nonce.getD i 0) ∧
      t.byte 32 = 0x10 ∧ t.byte 33 = 0x01 ∧ (∀ i, 34 ≤ i → i ≤ 46 → t.byte i = 0) ∧ t.byte 47 = 0x02 ∧
      t = { s with
        lanes := t.lanes
        phase := .down
        mode := .keyed
        seq := .kInit
        err := false
        cause := 0
        valid := false
        acc := 0
        chk := 0
        rnd := 0
        stp := 0
        staging := []
        busy := false
        permuting := false
        trace := s.trace ++ [.down 33 0x02]
        respOut := s.respOut ++ [0x00] }) ∧
    (¬ (key.length = 16 ∧ nonce.length = 16) → exec (.initKeyed key nonce) s = .next (raise .invalidArgument s))

/-- 42_duplex_commands R153, ABSORB accepted (ERR = 0 and SEQ one of H_INIT, H_ABS, K_INIT, K_AD): its effect on
lanes and PHASE is that of its micro-operations over CHUNKS(X, 16), both rates being 16 in profile H; PHASE ends
Down, SEQ moves on, the response is 0x00; nothing else changes but the model's own record (log 10). -/
def Obligations.AbsorbRunsItsMicroOperations : Prop :=
  ∀ (x : ByteString) (s : State), s.err = false → s.seq ∈ [Seq.hInit, .hAbs, .kInit, .kAd] →
    ∃ t u, exec (.absorb x) s = .next t ∧
      execAll (absorbMicroOps s.phase 0x03 (chunks x 16)) s = .next u ∧ t.lanes = u.lanes ∧ u.phase = .down ∧
      t = { s with
        lanes := t.lanes
        phase := .down
        seq := if s.mode = .hash then .hAbs else .kAd
        chk := 0
        rnd := 0
        stp := 0
        staging := []
        busy := false
        permuting := false
        trace := t.trace
        respOut := s.respOut ++ [0x00] }

/-- 42_duplex_commands R154, SQUEEZE accepted (ERR = 0, SEQ = H_ABS): `l` bytes, block `j` of which is read after
the micro-operations of `j` further blocks; the lanes end as after all of them, PHASE Up, SEQ = DONE; nothing
else changes but the model's own record (log 10). -/
def Obligations.SqueezeEmitsItsBlocks : Prop :=
  ∀ (l : Nat) (s : State), s.err = false → s.seq = .hAbs →
    ∃ t out, exec (.squeeze l) s = .next t ∧ out.length = l ∧
      (∀ j, (j = 0 ∨ 16 * j < l) → ∃ u, execAll (squeezeMicroOps j) s = .next u ∧
        (out.drop (16 * j)).take 16 = (List.range (min 16 (l - 16 * j))).map u.byte) ∧
      (∃ u, execAll (squeezeMicroOps ((l + 15) / 16 - 1)) s = .next u ∧ t.lanes = u.lanes) ∧
      t = { s with
        lanes := t.lanes
        phase := .up
        seq := .done
        chk := 0
        rnd := 0
        stp := 0
        staging := []
        busy := false
        permuting := false
        trace := t.trace
        respOut := s.respOut ++ 0x00 :: out }

/-- Every longer SQUEEZE output extends the shorter ones (42_duplex_commands R154; 95_test_vectors section 4.3). -/
def Obligations.SqueezeOutputsExtend : Prop :=
  ∀ (l m : Nat) (s t u : State), s.err = false → s.seq = .hAbs → l ≤ m →
    exec (.squeeze l) s = .next t → exec (.squeeze m) s = .next u → t.respOut <+: u.respOut

/-- 42_duplex_commands R155, ENCRYPT accepted (ERR = 0, SEQ = K_AD): the ciphertext is as long as the plaintext;
its chunk `j` is the plaintext chunk XOR the leading bytes after the micro-operations of the chunks before it and
the UP of its own; the lanes end as after the micro-operations of all chunks; PHASE Down, SEQ = K_CRYPT. -/
def Obligations.EncryptRunsItsMicroOperations : Prop :=
  ∀ (x : ByteString) (s : State), s.err = false → s.seq = .kAd →
    ∃ t out, exec (.encrypt x) s = .next t ∧ out.length = x.length ∧
      (∀ j c, (chunks x 16)[j]? = some c →
        ∃ u, execAll (encryptMicroOps 0x80 ((chunks x 16).take j) ++ [.up (if j = 0 then 0x80 else 0x00)]) s = .next u ∧
          (out.drop (16 * j)).take 16 = List.zipWith (· ^^^ ·) c ((List.range c.length).map u.byte)) ∧
      (∃ u, execAll (encryptMicroOps 0x80 (chunks x 16)) s = .next u ∧ t.lanes = u.lanes) ∧
      t = { s with
        lanes := t.lanes
        phase := .down
        seq := .kCrypt
        chk := 0
        rnd := 0
        stp := 0
        staging := []
        busy := false
        permuting := false
        trace := t.trace
        respOut := s.respOut ++ 0x00 :: out }

/-- 42_duplex_commands R156, DECRYPT accepted (ERR = 0, SEQ = K_AD): as ENCRYPT, but what goes back into the state
is the recovered plaintext, so the micro-operations are those of the output's chunks. -/
def Obligations.DecryptFeedsBackThePlaintext : Prop :=
  ∀ (x : ByteString) (s : State), s.err = false → s.seq = .kAd →
    ∃ t out, exec (.decrypt x) s = .next t ∧ out.length = x.length ∧
      (∀ j c, (chunks x 16)[j]? = some c →
        ∃ u, execAll (encryptMicroOps 0x80 ((chunks out 16).take j) ++ [.up (if j = 0 then 0x80 else 0x00)]) s = .next u ∧
          (out.drop (16 * j)).take 16 = List.zipWith (· ^^^ ·) c ((List.range c.length).map u.byte)) ∧
      (∃ u, execAll (encryptMicroOps 0x80 (chunks out 16)) s = .next u ∧ t.lanes = u.lanes) ∧
      t = { s with
        lanes := t.lanes
        phase := .down
        seq := .kCrypt
        chk := 0
        rnd := 0
        stp := 0
        staging := []
        busy := false
        permuting := false
        trace := t.trace
        respOut := s.respOut ++ 0x00 :: out }

/-- 42_duplex_commands R157, SQUEEZE_TAG accepted (ERR = 0, SEQ = K_CRYPT): one UP(0x40), then the 16 leading bytes
are answered; SEQ = DONE, PHASE Up; nothing else changes but the model's own record (log 10). -/
def Obligations.SqueezeTagEmitsSixteenBytes : Prop :=
  ∀ s : State, s.err = false → s.seq = .kCrypt →
    ∃ t u, exec .squeezeTag s = .next t ∧ exec (.up 0x40) s = .next u ∧ t.lanes = u.lanes ∧
      t = { s with
        lanes := t.lanes
        phase := .up
        seq := .done
        chk := 0
        rnd := 0
        stp := 0
        staging := []
        busy := false
        permuting := false
        trace := t.trace
        respOut := s.respOut ++ 0x00 :: (List.range 16).map u.byte }

/-- 42_duplex_commands R158, VERIFY_TAG accepted (ERR = 0, SEQ = K_CRYPT): with 16 bytes, one UP(0x40); bit `b` of ACC
is set exactly when some byte of the tag differs from the candidate in that bit; VALID = 1 exactly when all 16 bytes
are equal, and it is the payload; no fault either way (60_exceptions R200). With another length, InvalidArgument. -/
def Obligations.VerifyTagComparesAllBytes : Prop :=
  ∀ (tag : ByteString) (s : State), s.err = false → s.seq = .kCrypt →
    (tag.length = 16 → ∃ t u, exec (.verifyTag tag) s = .next t ∧ exec (.up 0x40) s = .next u ∧ t.lanes = u.lanes ∧
      (∀ b < 8, t.acc.getLsbD b = true ↔ ∃ i < 16, (u.byte i ^^^ tag.getD i 0).getLsbD b = true) ∧
      (t.valid = true ↔ tag = (List.range 16).map u.byte) ∧
      t = { s with
        lanes := t.lanes
        phase := .up
        seq := .done
        acc := t.acc
        valid := t.valid
        chk := 0
        rnd := 0
        stp := 0
        staging := []
        busy := false
        permuting := false
        trace := t.trace
        respOut := s.respOut ++ [0x00, if t.valid then 0x01 else 0x00] }) ∧
    (tag.length ≠ 16 → exec (.verifyTag tag) s = .next (raise .invalidArgument s))

/-- 42_duplex_commands R158, corner case: "a single flipped bit `b` in byte `i` of `T` gives `ACC = 1 << b`", and so
VALID = 0 (43_protocol_sequences R187 (c)). -/
def Obligations.FlippedTagBitIsSeen : Prop :=
  ∀ (tag : ByteString) (i b : Nat) (s t : State), s.err = false → s.seq = .kCrypt → i < 16 → b < 8 →
    exec (.squeezeTag) s = .next t → t.respOut = s.respOut ++ 0x00 :: tag →
    ∃ u, exec (.verifyTag (flipBit tag i b)) s = .next u ∧ u.acc = 1#8 <<< b ∧ u.valid = false ∧ u.err = false ∧
      u.respOut = s.respOut ++ [0x00, 0x00]

/-! ### Round trips and the pseudo-commands -/

/-- 42_duplex_commands R160 for the two crypt commands alone, in every profile: decrypting what ENCRYPT emitted, from
the same state, gives the plaintext and leaves the same state bytes. -/
def Obligations.DecryptUndoesEncrypt : Prop :=
  ∀ (p : Profile) (x out : ByteString) (s : State), ratesFit p → s.err = false → s.seq = .kAd →
    (encryptCmd p x s).respOut = s.respOut ++ 0x00 :: out →
    (decryptCmd p out s).respOut = s.respOut ++ 0x00 :: x ∧
    (decryptCmd p out s).lanes = (encryptCmd p x s).lanes ∧
    (decryptCmd p out s).phase = (encryptCmd p x s).phase ∧ (decryptCmd p out s).seq = (encryptCmd p x s).seq

/-- 42_duplex_commands R160: the whole AEAD round trip, in every profile, from any two states: same plaintext, same
state after DECRYPT as after ENCRYPT, and VALID = 1. -/
def Obligations.AeadRoundTrip : Prop :=
  ∀ (p : Profile) (key nonce ad pt : ByteString) (s : State), ratesFit p → key.length = 16 → nonce.length = 16 →
    ∃ ct tag, aeadEncResult p key nonce ad pt s = some (ct, tag) ∧ ct.length = pt.length ∧ tag.length = 16 ∧
      ∀ s' : State, aeadDecResult p key nonce tag ad ct s' = some (true, pt) ∧
        (decryptCmd p ct (absorbCmd p ad (initKeyedCmd key nonce s'))).lanes =
          (encryptCmd p pt (absorbCmd p ad (initKeyedCmd key nonce s))).lanes ∧
        (aeadDecSeq p key nonce tag ad ct s').valid = true

/-- 43_protocol_sequences R180, R187 (a): HASH answers three successes and a 32-byte digest that depends on the
message only, not on the state before. That the bytes on the command stream are left alone is log 7. -/
def Obligations.HashDependsOnTheMessageOnly : Prop :=
  ∀ m : ByteString, ∃ digest : ByteString, digest.length = 32 ∧ ∀ s : State, ∃ t, exec (.hash m) s = .next t ∧
    t.respOut = s.respOut ++ [0x00, 0x00, 0x00] ++ digest ∧ hashResult hardware m s = digest ∧
    t.seq = .done ∧ t.phase = .up ∧ t.mode = .hash ∧ t.err = false ∧ t.cmdIn = s.cmdIn

/-- 43_protocol_sequences R181: AEAD_ENC with a 16-byte key and nonce answers four successes, a ciphertext as long as
the plaintext and a 16-byte tag, which depend on the operands only. That the bytes on the command stream are left alone
is log 7. -/
def Obligations.AeadEncAnswersCiphertextAndTag : Prop :=
  ∀ key nonce ad pt : ByteString, key.length = 16 → nonce.length = 16 →
    ∃ ct tag : ByteString, ct.length = pt.length ∧ tag.length = 16 ∧
      ∀ s : State, ∃ t, exec (.aeadEnc key nonce ad pt) s = .next t ∧
        t.respOut = s.respOut ++ [0x00, 0x00, 0x00] ++ ct ++ 0x00 :: tag ∧
        aeadEncResult hardware key nonce ad pt s = some (ct, tag) ∧
        t.seq = .done ∧ t.phase = .up ∧ t.mode = .keyed ∧ t.err = false ∧ t.cmdIn = s.cmdIn

/-- 43_protocol_sequences R182: AEAD_DEC with a 16-byte key, nonce and tag answers four successes, a plaintext as long
as the ciphertext and the validity byte, which depend on the operands only. That the bytes on the command stream are left
alone is log 7. -/
def Obligations.AeadDecAnswersPlaintextAndValidity : Prop :=
  ∀ key nonce tag ad ct : ByteString, key.length = 16 → nonce.length = 16 → tag.length = 16 →
    ∃ (pt : ByteString) (v : Bool), pt.length = ct.length ∧
      ∀ s : State, ∃ t, exec (.aeadDec key nonce tag ad ct) s = .next t ∧
        t.respOut = s.respOut ++ [0x00, 0x00, 0x00] ++ pt ++ [0x00, if v then 0x01 else 0x00] ∧
        aeadDecResult hardware key nonce tag ad ct s = some (v, pt) ∧
        t.valid = v ∧ t.seq = .done ∧ t.phase = .up ∧ t.mode = .keyed ∧ t.err = false ∧ t.cmdIn = s.cmdIn

/-- 43_protocol_sequences R183 (log 7): with a wrong key, nonce or tag length the host issues nothing, so the hardware is
unchanged and the caller learns of the invalid argument. -/
def Obligations.HostChecksLengthsFirst : Prop :=
  ∀ (key nonce tag ad x : ByteString) (s : State),
    (¬ (key.length = 16 ∧ nonce.length = 16) → exec (.aeadEnc key nonce ad x) s = .next s ∧
      aeadEncResult hardware key nonce ad x s = none) ∧
    (¬ (key.length = 16 ∧ nonce.length = 16 ∧ tag.length = 16) → exec (.aeadDec key nonce tag ad x) s = .next s ∧
      aeadDecResult hardware key nonce tag ad x s = none)

/-- 30_encoding R92: a pseudo-command is its expansion: stepping through the frames of the expanded commands has the
effect of the pseudo-command. That `exec` of a pseudo-command runs its expansion in one go is log 7. -/
def Obligations.PseudoCommandsAreTheirFrames : Prop :=
  ∀ (i : Instr) (frames : List ByteString) (rest : ByteString) (s : State),
    expansion i ≠ [] → hostLengthsOk i = true → (expansion i).map encode = frames.map some →
    s.cmdIn = frames.flatten ++ rest →
    ∃ t, core.run (expansion i).length s = .next t ∧ exec i { s with cmdIn := rest } = .next t

/-! ### Faults, sequence and control -/

/-- 60_exceptions R190, R195, the codes of the faults and the effect of `raise`: the fault record (the first fault is kept), a response of the status byte
alone, the sequencer at (0, 0, 0); everything else is as before. -/
def Obligations.RaiseWritesOnlyTheRecord : Prop :=
  ∀ (f : Raised) (s : State),
    raise f s = { s with
      err := true
      cause := if s.err = true then s.cause else f.cause
      chk := 0
      rnd := 0
      stp := 0
      staging := []
      busy := false
      permuting := false
      respOut := s.respOut ++ [f.status] } ∧
    f.status = (match f with
      | .illegalCommand => 0x01
      | .invalidArgument => 0x02
      | .sequenceError => 0x03
      | .modeError => 0x04) ∧
    f.cause.toNat = f.status.toNat

/-- 60_exceptions R196 for the conditions after decoding, and R199: a command meets the first fault that applies in
that order, and otherwise runs to completion, answers 0x00 and leaves ERR = 0. -/
def Obligations.CommandsFaultByPriority : Prop :=
  ∀ (i : Instr) (k : CmdKind) (s : State), i.command? = some k →
    if k = .initHash ∨ k = .initKeyed then
      (if argumentsOk i = true then
        ∃ t payload, exec i s = .next t ∧ t.respOut = s.respOut ++ 0x00 :: payload ∧ t.err = false
      else exec i s = .next (raise .invalidArgument s))
    else if s.err = true then exec i s = .next (raise .sequenceError s)
    else if (s.seq ∈ [Seq.hInit, .hAbs] ∧ k ∈ [CmdKind.encrypt, .decrypt, .squeezeTag, .verifyTag]) ∨
        (s.seq ∈ [Seq.kInit, .kAd, .kCrypt] ∧ k = .squeeze) then exec i s = .next (raise .modeError s)
    else if nextSeq s.seq k = none then exec i s = .next (raise .sequenceError s)
    else if argumentsOk i = false then exec i s = .next (raise .invalidArgument s)
    else ∃ t payload, exec i s = .next t ∧ t.respOut = s.respOut ++ 0x00 :: payload ∧ t.err = false

/-- 60_exceptions R192, InvalidArgument: a command answers 0x02 exactly when it is an INIT_KEYED with a key or nonce that
is not 16 bytes, or a VERIFY_TAG that got past the prologue with a tag that is not 16 bytes; then nothing of the
instance has changed. No other length is ever invalid. -/
def Obligations.InvalidArgumentCases : Prop :=
  ∀ (i : Instr) (s t : State), i.isCommand = true → exec i s = .next t →
    (t.respOut = s.respOut ++ [0x02] ↔
      (∃ key nonce, i = .initKeyed key nonce ∧ ¬ (key.length = 16 ∧ nonce.length = 16)) ∨
      (∃ tag, i = .verifyTag tag ∧ tag.length ≠ 16 ∧ s.err = false ∧ s.seq = .kCrypt)) ∧
    (t.respOut = s.respOut ++ [0x02] → SameInstance s t)

/-- 60_exceptions R193, SequenceError: every command but the two INITs while ERR = 1, and with ERR = 0 the commands
listed by SEQ. -/
def Obligations.SequenceErrorCases : Prop :=
  ∀ (i : Instr) (k : CmdKind) (s : State), i.command? = some k → k ≠ .initHash → k ≠ .initKeyed →
    (s.err = true ∨
      (s.seq = .idle ∨ s.seq = .done) ∨
      (s.seq = .hInit ∧ k = .squeeze) ∨
      (s.seq = .kInit ∧ k ∈ [CmdKind.encrypt, .decrypt, .squeezeTag, .verifyTag]) ∨
      (s.seq = .kAd ∧ k ∈ [CmdKind.squeezeTag, .verifyTag]) ∨
      (s.seq = .kCrypt ∧ k ∈ [CmdKind.absorb, .encrypt, .decrypt])) →
    exec i s = .next (raise .sequenceError s)

/-- 60_exceptions R194, ModeError: with ERR = 0, the Keyed commands in a Hash instance and SQUEEZE in a Keyed one; in
IDLE and DONE the fault is SequenceError instead. -/
def Obligations.ModeErrorCases : Prop :=
  ∀ (i : Instr) (k : CmdKind) (s : State), i.command? = some k → s.err = false →
    (((s.seq ∈ [Seq.hInit, .hAbs] ∧ k ∈ [CmdKind.encrypt, .decrypt, .squeezeTag, .verifyTag]) ∨
        (s.seq ∈ [Seq.kInit, .kAd, .kCrypt] ∧ k = .squeeze)) →
      exec i s = .next (raise .modeError s)) ∧
    (s.seq ∈ [Seq.idle, .done] → k ∈ [CmdKind.encrypt, .decrypt, .squeezeTag, .verifyTag, .squeeze] →
      exec i s = .next (raise .sequenceError s))

/-- 60_exceptions R197: while ERR = 1 a command other than INIT answers SequenceError and changes nothing, CAUSE keeps the
first code; INIT_HASH and a legal INIT_KEYED clear ERR and CAUSE and start an instance; an illegal INIT_KEYED answers
InvalidArgument and leaves ERR = 1 with the old CAUSE. -/
def Obligations.FaultRecordIsSticky : Prop :=
  ∀ (i : Instr) (k : CmdKind) (s : State), i.command? = some k → s.err = true →
    ∃ t, exec i s = .next t ∧
      if k = .initHash ∨ (k = .initKeyed ∧ argumentsOk i = true) then
        t.err = false ∧ t.cause = 0 ∧ t.valid = false ∧ t.acc = 0 ∧ t.respOut = s.respOut ++ [0x00] ∧
          t.seq = (if k = .initHash then .hInit else .kInit) ∧
          t.mode = (if k = .initHash then .hash else .keyed) ∧ t.phase = (if k = .initHash then .up else .down)
      else
        t.err = true ∧ t.cause = s.cause ∧ SameInstance s t ∧
          t.respOut = s.respOut ++ [if k = .initKeyed then 0x02 else 0x03]

/-- 10_state R32: the transitions of SEQ. A command is accepted where the table lists it, with ERR = 0 (INIT_HASH and
INIT_KEYED also with ERR = 1) and legal operand lengths; any other faults and leaves SEQ unchanged. -/
def Obligations.SequenceFollowsTheTable : Prop :=
  ∀ (i : Instr) (k : CmdKind) (s : State), s.Inv → i.command? = some k →
    ∃ t, exec i s = .next t ∧
      if (s.err = false ∨ k = .initHash ∨ k = .initKeyed) ∧ argumentsOk i = true ∧ nextSeq s.seq k ≠ none then
        some t.seq = nextSeq s.seq k ∧ t.err = false
      else t.seq = s.seq ∧ t.err = true

/-- 10_state R27: PHASE after each command that succeeds. -/
def Obligations.PhaseAfterEachCommand : Prop :=
  ∀ (i : Instr) (k : CmdKind) (s t : State), i.command? = some k → exec i s = .next t → t.err = false →
    t.phase = if k ∈ [CmdKind.initKeyed, .absorb, .encrypt, .decrypt] then .down else .up

/-- 42_duplex_commands R161: the permutations of each accepted command (the count of UPs on the model's own record, log 10). -/
def Obligations.PermutationsPerCommand : Prop :=
  ∀ (i : Instr) (s t : State), i.isCommand = true → exec i s = .next t → t.err = false →
    t.permutations = s.permutations +
      match i with
      | .absorb x => max 1 ((x.length + 15) / 16) - (if s.phase = .up then 1 else 0)
      | .squeeze l => max 1 ((l + 15) / 16)
      | .encrypt x => max 1 ((x.length + 15) / 16)
      | .decrypt x => max 1 ((x.length + 15) / 16)
      | .squeezeTag => 1
      | .verifyTag _ => 1
      | _ => 0

/-- 42_duplex_commands R162, 70_reset_and_hazards R231: which primitives a command performs, in which order and how
often (as the model's own record lists them, log 10), and how long its response is, is the same for any two runs that agree on MODE, SEQ, PHASE, ERR and the operand
lengths; no data, key or tag byte and no state byte matters. ERR is among them because it decides whether a command
runs at all (60_exceptions R197). -/
def Obligations.ControlIsPublic : Prop :=
  ∀ (i j : Instr) (s s' t t' : State), i.isCommand = true → i.shape = j.shape → s.control = s'.control →
    s.trace = s'.trace → s.respOut.length = s'.respOut.length → exec i s = .next t → exec j s' = .next t' →
    t.trace = t'.trace ∧ t.control = t'.control ∧ t.respOut.length = t'.respOut.length

/-- 60_exceptions R212: a step of one instance leaves every other instance as it is, and is that instance's own step. -/
def Obligations.InstancesShareNothing : Prop :=
  ∀ (k : Nat) (is : List State) (s : State), is[k]? = some s →
    (stepInstance k is).length = is.length ∧
    (∀ j, j ≠ k → (stepInstance k is)[j]? = is[j]?) ∧
    (∃ t, step s = .next t ∧ (stepInstance k is)[k]? = some t)

/-- 10_state R33: the fields of STATUS. -/
def Obligations.StatusPacksTheControlState : Prop :=
  ∀ s : State,
    s.status.extractLsb' 0 3 = s.seq.code ∧ s.status.extractLsb' 3 1 = s.phase.code ∧
    s.status.extractLsb' 4 1 = modeCode s.mode ∧ s.status.getLsbD 5 = s.err ∧
    s.status.extractLsb' 6 3 = s.cause ∧ s.status.getLsbD 9 = s.valid ∧ s.status.extractLsb' 10 6 = 0

/-- 00_scope R12: in Hash mode H and PUB do the same at every ABSORB of every state, and LIT does as they do up to 16
bytes; SQUEEZE is the same in every profile. So H and PUB agree on every Hash-mode sequence, and LIT agrees as long as no
message exceeds 16 bytes. The three agree on AEAD encryption of an empty plaintext with at most 16 bytes of associated
data. -/
def Obligations.HAndPubHashAlikeLitShortAllEncryptEmptyAlike : Prop :=
  (∀ (x : ByteString) (s : State), s.mode = .hash → absorbCmd profileH x s = absorbCmd profilePUB x s) ∧
  (∀ (x : ByteString) (s : State), s.mode = .hash → x.length ≤ 16 → absorbCmd profileLIT x s = absorbCmd profileH x s) ∧
  (∀ (p q : Profile) (l : Nat) (s : State), squeezeCmd p l s = squeezeCmd q l s) ∧
  (∀ (ms : List ByteString) (l : Nat) (s : State), hashModeRun profileH ms l s = hashModeRun profilePUB ms l s) ∧
  (∀ (ms : List ByteString) (l : Nat) (s : State), (∀ m ∈ ms, m.length ≤ 16) →
    hashModeRun profileLIT ms l s = hashModeRun profileH ms l s) ∧
  (∀ (m : ByteString) (s : State), hashSeq profileH m s = hashSeq profilePUB m s) ∧
  (∀ (m : ByteString) (s : State), m.length ≤ 16 → hashSeq profileLIT m s = hashSeq profileH m s) ∧
  (∀ (key nonce ad : ByteString) (s : State), ad.length ≤ 16 →
    aeadEncResult profileH key nonce ad [] s = aeadEncResult profilePUB key nonce ad [] s ∧
    aeadEncResult profileH key nonce ad [] s = aeadEncResult profileLIT key nonce ad [] s)
end

