-- ==== Sys2Proof/Laws/Bytes.lean ====
section
/-! SUPPORT. The laws of the byte view: reading after writing, byte by byte (20_memory R50), and what the
duplex primitives write at each state byte (41_duplex_primitives R133, R134). -/

namespace Sys2Proof.Machine

theorem reg_setReg (a : Lanes) (v : Lane) {i j : Nat} (hi : i < 12) (hj : j < 12) :
    (a.setReg i v).reg j = if j = i then v else a.reg j := by
  interval_cases i <;> interval_cases j <;> rfl

theorem getLsbD_laneByte (v : Lane) (k b : Nat) :
    (laneByte v k).getLsbD b = (decide (b < 8) && v.getLsbD (8 * k + b)) := by
  simp [laneByte]

theorem laneByte_setLaneByte (v : Lane) (b : Byte) {k l : Nat} (hk : k < 4) (hl : l < 4) :
    laneByte (setLaneByte v k b) l = if l = k then b else laneByte v l := by
  apply BitVec.eq_of_getLsbD_eq
  intro n hn
  interval_cases k <;> interval_cases l <;> interval_cases n <;>
    simp [laneByte, setLaneByte]

/-- Reading a state byte after writing one (20_memory R50). -/
theorem byte_setByte (a : Lanes) (v : Byte) {i j : Nat} (hi : i < 48) (hj : j < 48) :
    (a.setByte i v).byte j = if j = i then v else a.byte j := by
  have hi4 : i / 4 < 12 := by omega
  have hj4 : j / 4 < 12 := by omega
  unfold Lanes.byte Lanes.setByte
  rw [reg_setReg a _ hi4 hj4]
  by_cases hq : j / 4 = i / 4
  · rw [if_pos hq, laneByte_setLaneByte _ _ (Nat.mod_lt _ (by decide)) (Nat.mod_lt _ (by decide)), hq]
    have : (j % 4 = i % 4) ↔ j = i := by omega
    simp [this]
  · have : j ≠ i := by rintro rfl; exact hq rfl
    simp [hq, this]

@[simp] theorem byte_zero (i : Nat) : Lanes.zero.byte i = 0 := by
  have h : Lanes.zero.reg (i / 4) = 0 := by
    unfold Lanes.reg
    split <;> rfl
  simp [Lanes.byte, h, laneByte]

theorem lane_ext_bytes {v w : Lane} (h : ∀ k < 4, laneByte v k = laneByte w k) : v = w := by
  apply BitVec.eq_of_getLsbD_eq
  intro n hn
  have hb := congrArg (fun b : Byte => b.getLsbD (n % 8)) (h (n / 8) (by omega))
  simp only [getLsbD_laneByte] at hb
  have h8 : n % 8 < 8 := Nat.mod_lt _ (by decide)
  have hsum : 8 * (n / 8) + n % 8 = n := by omega
  simpa [h8, hsum] using hb

/-- Two lane states with the same 48 bytes are the same (20_memory R50). -/
theorem lanes_ext_bytes {a b : Lanes} (h : ∀ i < 48, a.byte i = b.byte i) : a = b := by
  have hreg : ∀ k < 12, a.reg k = b.reg k := by
    intro k hk
    apply lane_ext_bytes
    intro l hl
    have := h (4 * k + l) (by omega)
    have hd : (4 * k + l) / 4 = k := by omega
    have hm : (4 * k + l) % 4 = l := by omega
    simpa [Lanes.byte, hd, hm] using this
  obtain ⟨⟨a0, a1, a2, a3⟩, ⟨a4, a5, a6, a7⟩, ⟨a8, a9, a10, a11⟩⟩ := a
  obtain ⟨⟨b0, b1, b2, b3⟩, ⟨b4, b5, b6, b7⟩, ⟨b8, b9, b10, b11⟩⟩ := b
  have h0 := hreg 0 (by decide); have h1 := hreg 1 (by decide); have h2 := hreg 2 (by decide)
  have h3 := hreg 3 (by decide); have h4 := hreg 4 (by decide); have h5 := hreg 5 (by decide)
  have h6 := hreg 6 (by decide); have h7 := hreg 7 (by decide); have h8 := hreg 8 (by decide)
  have h9 := hreg 9 (by decide); have h10 := hreg 10 (by decide); have h11 := hreg 11 (by decide)
  simp_all [Lanes.reg]

theorem byte_memXor (x : ByteString) (a : Lanes) {start j : Nat} (hx : start + x.length ≤ 48) (hj : j < 48) :
    (a.memXor start x).byte j =
      if start ≤ j ∧ j < start + x.length then a.byte j ^^^ x.getD (j - start) 0 else a.byte j := by
  induction x generalizing a start with
  | nil =>
    have : ¬ (start ≤ j ∧ j < start) := by omega
    simp [Lanes.memXor, this]
  | cons b bs ih =>
    have hlen : start + (bs.length + 1) ≤ 48 := by simpa using hx
    rw [Lanes.memXor, ih _ (by omega), byte_setByte _ _ (by omega) hj]
    by_cases h1 : j = start
    · subst h1
      have hn : ¬ (j + 1 ≤ j ∧ j < j + 1 + bs.length) := by omega
      simp
    · by_cases h2 : start + 1 ≤ j ∧ j < start + 1 + bs.length
      · obtain ⟨m, rfl⟩ : ∃ m, j = start + 1 + m := ⟨j - (start + 1), by omega⟩
        have e1 : start + 1 + m - start = m + 1 := by omega
        have e2 : start + 1 + m - (start + 1) = m := by omega
        have h3 : start ≤ start + 1 + m ∧ start + 1 + m < start + (b :: bs).length := by
          simp only [List.length_cons]; omega
        rw [if_pos h2, if_neg h1, if_pos h3, e1, e2, List.getD_cons_succ]
      · have h3 : ¬ (start ≤ j ∧ j < start + (b :: bs).length) := by
          simp only [List.length_cons]; omega
        rw [if_neg h2, if_neg h1, if_neg h3]

theorem byte_memWrite (x : ByteString) (a : Lanes) {start j : Nat} (hx : start + x.length ≤ 48) (hj : j < 48) :
    (a.memWrite start x).byte j =
      if start ≤ j ∧ j < start + x.length then x.getD (j - start) 0 else a.byte j := by
  induction x generalizing a start with
  | nil =>
    have : ¬ (start ≤ j ∧ j < start) := by omega
    simp [Lanes.memWrite, this]
  | cons b bs ih =>
    have hlen : start + (bs.length + 1) ≤ 48 := by simpa using hx
    rw [Lanes.memWrite, ih _ (by omega), byte_setByte _ _ (by omega) hj]
    by_cases h1 : j = start
    · subst h1
      simp
    · by_cases h2 : start + 1 ≤ j ∧ j < start + 1 + bs.length
      · obtain ⟨m, rfl⟩ : ∃ m, j = start + 1 + m := ⟨j - (start + 1), by omega⟩
        have e1 : start + 1 + m - start = m + 1 := by omega
        have e2 : start + 1 + m - (start + 1) = m := by omega
        have h3 : start ≤ start + 1 + m ∧ start + 1 + m < start + (b :: bs).length := by
          simp only [List.length_cons]; omega
        rw [if_pos h2, if_pos h3, e1, e2, List.getD_cons_succ]
      · have h3 : ¬ (start ≤ j ∧ j < start + (b :: bs).length) := by
          simp only [List.length_cons]; omega
        rw [if_neg h2, if_neg h1, if_neg h3]

/-- Padding and the domain code, byte by byte (41_duplex_primitives R138, last three rows). -/
theorem byte_padAndCode (a : Lanes) (c : Byte) {n j : Nat} (hn : n < 47) (hj : j < 48) :
    (padAndCode n c a).byte j =
      if j = n then a.byte n ^^^ padByte else if j = 47 then a.byte 47 ^^^ c else a.byte j := by
  unfold padAndCode domPos
  simp only []
  rw [byte_setByte _ _ (by omega) hj, byte_setByte _ _ (by omega) hj, byte_setByte _ _ (by omega) (by omega)]
  have h1 : (47 : Nat) ≠ n := by omega
  by_cases h2 : j = 47
  · subst h2; simp [h1]
  · simp [h2]

@[simp] theorem length_memRead (a : Lanes) (start n : Nat) : (a.memRead start n).length = n := by
  simp [Lanes.memRead]

@[simp] theorem length_lead (n : Nat) (s : State) : (lead n s).length = n := by simp [lead]

theorem getElem_lead (n : Nat) (s : State) {i : Nat} (hi : i < (lead n s).length) : (lead n s)[i] = s.byte i := by
  simp [lead, Lanes.memRead, State.byte]

/-- Reading fewer leading bytes gives a prefix. -/
theorem take_lead (m n : Nat) (s : State) : (lead n s).take m = lead (min m n) s := by
  simp [lead, Lanes.memRead, ← List.map_take, List.take_range]

@[simp] theorem length_xorBytes (x y : ByteString) : (xorBytes x y).length = min x.length y.length := by
  simp [xorBytes]

/-- The keystream cancels (42_duplex_commands R160). -/
theorem xorBytes_cancel : ∀ x k : ByteString, x.length = k.length → xorBytes (xorBytes x k) k = x
  | [], [], _ => rfl
  | a :: x, b :: k, h => by
    have ih := xorBytes_cancel x k (by simpa using h)
    simp only [xorBytes] at ih
    simp [xorBytes, ih]

end Sys2Proof.Machine
end

