-- ==== Sys2Proof/Laws/Operands.lean ====
section
/-! SUPPORT. The laws of CHUNKS (41_duplex_primitives R130). -/

namespace Sys2Proof.Machine

theorem chunks_ne_nil (x : ByteString) {r : Nat} (hr : 0 < r) : chunks x r ≠ [] := by
  cases x with
  | nil => simp [chunks]
  | cons b bs =>
    have h : 0 < ceilDiv (b :: bs).length r := by
      unfold ceilDiv
      apply Nat.div_pos
      · simp only [List.length_cons]; omega
      · exact hr
    simpa [chunks] using (Nat.ne_of_gt h)

@[simp] theorem chunks_nil (r : Nat) : chunks [] r = [[]] := rfl

/-- A string of at most one rate is one chunk. -/
theorem chunks_of_le {x : ByteString} {r : Nat} (hx : x ≠ []) (h : x.length ≤ r) : chunks x r = [x] := by
  cases x with
  | nil => exact absurd rfl hx
  | cons b bs =>
    have h1 : ceilDiv (b :: bs).length r = 1 := by
      unfold ceilDiv
      simp only [List.length_cons] at h ⊢
      exact Nat.div_eq_of_lt_le (by omega) (by omega)
    have h2 : chunkAt (b :: bs) r 0 = b :: bs := by
      unfold chunkAt
      rw [Nat.zero_mul, List.drop_zero, List.take_of_length_le h]
    show (List.range (ceilDiv (b :: bs).length r)).map (chunkAt (b :: bs) r) = _
    rw [h1]
    simp [h2]

/-- A full chunk in front of a non-empty rest is the first chunk. -/
theorem chunks_append {x y : ByteString} {r : Nat} (hr : 0 < r) (hx : x.length = r) (hy : y ≠ []) :
    chunks (x ++ y) r = x :: chunks y r := by
  cases y with
  | nil => exact absurd rfl hy
  | cons b bs =>
    cases x with
    | nil => simp at hx; omega
    | cons a as =>
      have hlen : ((a :: as) ++ (b :: bs)).length = r + (b :: bs).length := by simp [← hx]; omega
      have hceil : ceilDiv ((a :: as) ++ (b :: bs)).length r = ceilDiv (b :: bs).length r + 1 := by
        unfold ceilDiv
        rw [hlen, show r + (b :: bs).length + r - 1 = (b :: bs).length + r - 1 + r by simp only [List.length_cons]; omega,
          Nat.add_div_right _ hr]
      show (List.range (ceilDiv ((a :: as) ++ (b :: bs)).length r)).map (chunkAt ((a :: as) ++ (b :: bs)) r) = _
      rw [hceil, List.range_succ_eq_map, List.map_cons, List.map_map]
      congr 1
      · unfold chunkAt
        rw [Nat.zero_mul, List.drop_zero, List.take_append_of_le_length (by omega), List.take_of_length_le (by omega)]
      · show _ = (List.range (ceilDiv (b :: bs).length r)).map (chunkAt (b :: bs) r)
        apply List.map_congr_left
        intro j _
        show chunkAt _ r (j + 1) = chunkAt _ r j
        unfold chunkAt
        rw [Nat.add_mul, Nat.one_mul, show j * r + r = (a :: as).length + j * r by omega,
          ← List.drop_drop, List.drop_left]

/-- Induction along the chunks of a string. -/
theorem chunks_induction {P : ByteString → List ByteString → Prop} {r : Nat} (hr : 0 < r)
    (hlast : ∀ x, x.length ≤ r → P x [x])
    (hmore : ∀ x y, x.length = r → y ≠ [] → P y (chunks y r) → P (x ++ y) (x :: chunks y r))
    (x : ByteString) : P x (chunks x r) := by
  induction hn : x.length using Nat.strong_induction_on generalizing x with
  | _ n ih =>
    by_cases hx : x.length ≤ r
    · by_cases h0 : x = []
      · subst h0; exact hlast [] (by simp)
      · rw [chunks_of_le h0 hx]; exact hlast x hx
    · have hsplit : x = x.take r ++ x.drop r := (List.take_append_drop r x).symm
      have hl : (x.take r).length = r := by simp; omega
      have hd : x.drop r ≠ [] := by
        intro h
        have := congrArg List.length h
        simp at this; omega
      have := hmore _ _ hl hd (ih (x.drop r).length (by simp; omega) _ rfl)
      rw [← chunks_append hr hl hd] at this
      rwa [← hsplit] at this

end Sys2Proof.Machine
end

