-- ==== Sys2Proof/Laws/State.lean ====
section
/-! SUPPORT. One lemma per field per update of `State`, each true by `rfl`. -/

namespace Sys2Proof.Machine

section
variable (s : State)

/-! ### `State.putLanes` -/

@[simp] theorem State.putLanes_lanes (a : Lanes) : (s.putLanes a).lanes = a := rfl
@[simp] theorem State.putLanes_phase (a : Lanes) : (s.putLanes a).phase = s.phase := rfl
@[simp] theorem State.putLanes_mode (a : Lanes) : (s.putLanes a).mode = s.mode := rfl
@[simp] theorem State.putLanes_seq (a : Lanes) : (s.putLanes a).seq = s.seq := rfl
@[simp] theorem State.putLanes_err (a : Lanes) : (s.putLanes a).err = s.err := rfl
@[simp] theorem State.putLanes_cause (a : Lanes) : (s.putLanes a).cause = s.cause := rfl
@[simp] theorem State.putLanes_valid (a : Lanes) : (s.putLanes a).valid = s.valid := rfl
@[simp] theorem State.putLanes_acc (a : Lanes) : (s.putLanes a).acc = s.acc := rfl
@[simp] theorem State.putLanes_chk (a : Lanes) : (s.putLanes a).chk = s.chk := rfl
@[simp] theorem State.putLanes_rnd (a : Lanes) : (s.putLanes a).rnd = s.rnd := rfl
@[simp] theorem State.putLanes_stp (a : Lanes) : (s.putLanes a).stp = s.stp := rfl
@[simp] theorem State.putLanes_staging (a : Lanes) : (s.putLanes a).staging = s.staging := rfl
@[simp] theorem State.putLanes_busy (a : Lanes) : (s.putLanes a).busy = s.busy := rfl
@[simp] theorem State.putLanes_permuting (a : Lanes) : (s.putLanes a).permuting = s.permuting := rfl
@[simp] theorem State.putLanes_cmdIn (a : Lanes) : (s.putLanes a).cmdIn = s.cmdIn := rfl
@[simp] theorem State.putLanes_respOut (a : Lanes) : (s.putLanes a).respOut = s.respOut := rfl
@[simp] theorem State.putLanes_trace (a : Lanes) : (s.putLanes a).trace = s.trace := rfl
@[simp] theorem State.putLanes_resets (a : Lanes) : (s.putLanes a).resets = s.resets := rfl

/-! ### `State.putPhase` -/

@[simp] theorem State.putPhase_lanes (p : Phase) : (s.putPhase p).lanes = s.lanes := rfl
@[simp] theorem State.putPhase_phase (p : Phase) : (s.putPhase p).phase = p := rfl
@[simp] theorem State.putPhase_mode (p : Phase) : (s.putPhase p).mode = s.mode := rfl
@[simp] theorem State.putPhase_seq (p : Phase) : (s.putPhase p).seq = s.seq := rfl
@[simp] theorem State.putPhase_err (p : Phase) : (s.putPhase p).err = s.err := rfl
@[simp] theorem State.putPhase_cause (p : Phase) : (s.putPhase p).cause = s.cause := rfl
@[simp] theorem State.putPhase_valid (p : Phase) : (s.putPhase p).valid = s.valid := rfl
@[simp] theorem State.putPhase_acc (p : Phase) : (s.putPhase p).acc = s.acc := rfl
@[simp] theorem State.putPhase_chk (p : Phase) : (s.putPhase p).chk = s.chk := rfl
@[simp] theorem State.putPhase_rnd (p : Phase) : (s.putPhase p).rnd = s.rnd := rfl
@[simp] theorem State.putPhase_stp (p : Phase) : (s.putPhase p).stp = s.stp := rfl
@[simp] theorem State.putPhase_staging (p : Phase) : (s.putPhase p).staging = s.staging := rfl
@[simp] theorem State.putPhase_busy (p : Phase) : (s.putPhase p).busy = s.busy := rfl
@[simp] theorem State.putPhase_permuting (p : Phase) : (s.putPhase p).permuting = s.permuting := rfl
@[simp] theorem State.putPhase_cmdIn (p : Phase) : (s.putPhase p).cmdIn = s.cmdIn := rfl
@[simp] theorem State.putPhase_respOut (p : Phase) : (s.putPhase p).respOut = s.respOut := rfl
@[simp] theorem State.putPhase_trace (p : Phase) : (s.putPhase p).trace = s.trace := rfl
@[simp] theorem State.putPhase_resets (p : Phase) : (s.putPhase p).resets = s.resets := rfl

/-! ### `State.putSeq` -/

@[simp] theorem State.putSeq_lanes (q : Seq) : (s.putSeq q).lanes = s.lanes := rfl
@[simp] theorem State.putSeq_phase (q : Seq) : (s.putSeq q).phase = s.phase := rfl
@[simp] theorem State.putSeq_mode (q : Seq) : (s.putSeq q).mode = s.mode := rfl
@[simp] theorem State.putSeq_seq (q : Seq) : (s.putSeq q).seq = q := rfl
@[simp] theorem State.putSeq_err (q : Seq) : (s.putSeq q).err = s.err := rfl
@[simp] theorem State.putSeq_cause (q : Seq) : (s.putSeq q).cause = s.cause := rfl
@[simp] theorem State.putSeq_valid (q : Seq) : (s.putSeq q).valid = s.valid := rfl
@[simp] theorem State.putSeq_acc (q : Seq) : (s.putSeq q).acc = s.acc := rfl
@[simp] theorem State.putSeq_chk (q : Seq) : (s.putSeq q).chk = s.chk := rfl
@[simp] theorem State.putSeq_rnd (q : Seq) : (s.putSeq q).rnd = s.rnd := rfl
@[simp] theorem State.putSeq_stp (q : Seq) : (s.putSeq q).stp = s.stp := rfl
@[simp] theorem State.putSeq_staging (q : Seq) : (s.putSeq q).staging = s.staging := rfl
@[simp] theorem State.putSeq_busy (q : Seq) : (s.putSeq q).busy = s.busy := rfl
@[simp] theorem State.putSeq_permuting (q : Seq) : (s.putSeq q).permuting = s.permuting := rfl
@[simp] theorem State.putSeq_cmdIn (q : Seq) : (s.putSeq q).cmdIn = s.cmdIn := rfl
@[simp] theorem State.putSeq_respOut (q : Seq) : (s.putSeq q).respOut = s.respOut := rfl
@[simp] theorem State.putSeq_trace (q : Seq) : (s.putSeq q).trace = s.trace := rfl
@[simp] theorem State.putSeq_resets (q : Seq) : (s.putSeq q).resets = s.resets := rfl

/-! ### `State.putAcc` -/

@[simp] theorem State.putAcc_lanes (v : Byte) : (s.putAcc v).lanes = s.lanes := rfl
@[simp] theorem State.putAcc_phase (v : Byte) : (s.putAcc v).phase = s.phase := rfl
@[simp] theorem State.putAcc_mode (v : Byte) : (s.putAcc v).mode = s.mode := rfl
@[simp] theorem State.putAcc_seq (v : Byte) : (s.putAcc v).seq = s.seq := rfl
@[simp] theorem State.putAcc_err (v : Byte) : (s.putAcc v).err = s.err := rfl
@[simp] theorem State.putAcc_cause (v : Byte) : (s.putAcc v).cause = s.cause := rfl
@[simp] theorem State.putAcc_valid (v : Byte) : (s.putAcc v).valid = s.valid := rfl
@[simp] theorem State.putAcc_acc (v : Byte) : (s.putAcc v).acc = v := rfl
@[simp] theorem State.putAcc_chk (v : Byte) : (s.putAcc v).chk = s.chk := rfl
@[simp] theorem State.putAcc_rnd (v : Byte) : (s.putAcc v).rnd = s.rnd := rfl
@[simp] theorem State.putAcc_stp (v : Byte) : (s.putAcc v).stp = s.stp := rfl
@[simp] theorem State.putAcc_staging (v : Byte) : (s.putAcc v).staging = s.staging := rfl
@[simp] theorem State.putAcc_busy (v : Byte) : (s.putAcc v).busy = s.busy := rfl
@[simp] theorem State.putAcc_permuting (v : Byte) : (s.putAcc v).permuting = s.permuting := rfl
@[simp] theorem State.putAcc_cmdIn (v : Byte) : (s.putAcc v).cmdIn = s.cmdIn := rfl
@[simp] theorem State.putAcc_respOut (v : Byte) : (s.putAcc v).respOut = s.respOut := rfl
@[simp] theorem State.putAcc_trace (v : Byte) : (s.putAcc v).trace = s.trace := rfl
@[simp] theorem State.putAcc_resets (v : Byte) : (s.putAcc v).resets = s.resets := rfl

/-! ### `State.putValid` -/

@[simp] theorem State.putValid_lanes (b : Bool) : (s.putValid b).lanes = s.lanes := rfl
@[simp] theorem State.putValid_phase (b : Bool) : (s.putValid b).phase = s.phase := rfl
@[simp] theorem State.putValid_mode (b : Bool) : (s.putValid b).mode = s.mode := rfl
@[simp] theorem State.putValid_seq (b : Bool) : (s.putValid b).seq = s.seq := rfl
@[simp] theorem State.putValid_err (b : Bool) : (s.putValid b).err = s.err := rfl
@[simp] theorem State.putValid_cause (b : Bool) : (s.putValid b).cause = s.cause := rfl
@[simp] theorem State.putValid_valid (b : Bool) : (s.putValid b).valid = b := rfl
@[simp] theorem State.putValid_acc (b : Bool) : (s.putValid b).acc = s.acc := rfl
@[simp] theorem State.putValid_chk (b : Bool) : (s.putValid b).chk = s.chk := rfl
@[simp] theorem State.putValid_rnd (b : Bool) : (s.putValid b).rnd = s.rnd := rfl
@[simp] theorem State.putValid_stp (b : Bool) : (s.putValid b).stp = s.stp := rfl
@[simp] theorem State.putValid_staging (b : Bool) : (s.putValid b).staging = s.staging := rfl
@[simp] theorem State.putValid_busy (b : Bool) : (s.putValid b).busy = s.busy := rfl
@[simp] theorem State.putValid_permuting (b : Bool) : (s.putValid b).permuting = s.permuting := rfl
@[simp] theorem State.putValid_cmdIn (b : Bool) : (s.putValid b).cmdIn = s.cmdIn := rfl
@[simp] theorem State.putValid_respOut (b : Bool) : (s.putValid b).respOut = s.respOut := rfl
@[simp] theorem State.putValid_trace (b : Bool) : (s.putValid b).trace = s.trace := rfl
@[simp] theorem State.putValid_resets (b : Bool) : (s.putValid b).resets = s.resets := rfl

/-! ### `State.emit` -/

@[simp] theorem State.emit_lanes (v : ByteString) : (s.emit v).lanes = s.lanes := rfl
@[simp] theorem State.emit_phase (v : ByteString) : (s.emit v).phase = s.phase := rfl
@[simp] theorem State.emit_mode (v : ByteString) : (s.emit v).mode = s.mode := rfl
@[simp] theorem State.emit_seq (v : ByteString) : (s.emit v).seq = s.seq := rfl
@[simp] theorem State.emit_err (v : ByteString) : (s.emit v).err = s.err := rfl
@[simp] theorem State.emit_cause (v : ByteString) : (s.emit v).cause = s.cause := rfl
@[simp] theorem State.emit_valid (v : ByteString) : (s.emit v).valid = s.valid := rfl
@[simp] theorem State.emit_acc (v : ByteString) : (s.emit v).acc = s.acc := rfl
@[simp] theorem State.emit_chk (v : ByteString) : (s.emit v).chk = s.chk := rfl
@[simp] theorem State.emit_rnd (v : ByteString) : (s.emit v).rnd = s.rnd := rfl
@[simp] theorem State.emit_stp (v : ByteString) : (s.emit v).stp = s.stp := rfl
@[simp] theorem State.emit_staging (v : ByteString) : (s.emit v).staging = s.staging := rfl
@[simp] theorem State.emit_busy (v : ByteString) : (s.emit v).busy = s.busy := rfl
@[simp] theorem State.emit_permuting (v : ByteString) : (s.emit v).permuting = s.permuting := rfl
@[simp] theorem State.emit_cmdIn (v : ByteString) : (s.emit v).cmdIn = s.cmdIn := rfl
@[simp] theorem State.emit_respOut (v : ByteString) : (s.emit v).respOut = s.respOut ++ v := rfl
@[simp] theorem State.emit_trace (v : ByteString) : (s.emit v).trace = s.trace := rfl
@[simp] theorem State.emit_resets (v : ByteString) : (s.emit v).resets = s.resets := rfl

/-! ### `State.note` -/

@[simp] theorem State.note_lanes (e : Prim) : (s.note e).lanes = s.lanes := rfl
@[simp] theorem State.note_phase (e : Prim) : (s.note e).phase = s.phase := rfl
@[simp] theorem State.note_mode (e : Prim) : (s.note e).mode = s.mode := rfl
@[simp] theorem State.note_seq (e : Prim) : (s.note e).seq = s.seq := rfl
@[simp] theorem State.note_err (e : Prim) : (s.note e).err = s.err := rfl
@[simp] theorem State.note_cause (e : Prim) : (s.note e).cause = s.cause := rfl
@[simp] theorem State.note_valid (e : Prim) : (s.note e).valid = s.valid := rfl
@[simp] theorem State.note_acc (e : Prim) : (s.note e).acc = s.acc := rfl
@[simp] theorem State.note_chk (e : Prim) : (s.note e).chk = s.chk := rfl
@[simp] theorem State.note_rnd (e : Prim) : (s.note e).rnd = s.rnd := rfl
@[simp] theorem State.note_stp (e : Prim) : (s.note e).stp = s.stp := rfl
@[simp] theorem State.note_staging (e : Prim) : (s.note e).staging = s.staging := rfl
@[simp] theorem State.note_busy (e : Prim) : (s.note e).busy = s.busy := rfl
@[simp] theorem State.note_permuting (e : Prim) : (s.note e).permuting = s.permuting := rfl
@[simp] theorem State.note_cmdIn (e : Prim) : (s.note e).cmdIn = s.cmdIn := rfl
@[simp] theorem State.note_respOut (e : Prim) : (s.note e).respOut = s.respOut := rfl
@[simp] theorem State.note_trace (e : Prim) : (s.note e).trace = s.trace ++ [e] := rfl
@[simp] theorem State.note_resets (e : Prim) : (s.note e).resets = s.resets := rfl

/-! ### `State.consume` -/

@[simp] theorem State.consume_lanes (n : Nat) : (s.consume n).lanes = s.lanes := rfl
@[simp] theorem State.consume_phase (n : Nat) : (s.consume n).phase = s.phase := rfl
@[simp] theorem State.consume_mode (n : Nat) : (s.consume n).mode = s.mode := rfl
@[simp] theorem State.consume_seq (n : Nat) : (s.consume n).seq = s.seq := rfl
@[simp] theorem State.consume_err (n : Nat) : (s.consume n).err = s.err := rfl
@[simp] theorem State.consume_cause (n : Nat) : (s.consume n).cause = s.cause := rfl
@[simp] theorem State.consume_valid (n : Nat) : (s.consume n).valid = s.valid := rfl
@[simp] theorem State.consume_acc (n : Nat) : (s.consume n).acc = s.acc := rfl
@[simp] theorem State.consume_chk (n : Nat) : (s.consume n).chk = s.chk := rfl
@[simp] theorem State.consume_rnd (n : Nat) : (s.consume n).rnd = s.rnd := rfl
@[simp] theorem State.consume_stp (n : Nat) : (s.consume n).stp = s.stp := rfl
@[simp] theorem State.consume_staging (n : Nat) : (s.consume n).staging = s.staging := rfl
@[simp] theorem State.consume_busy (n : Nat) : (s.consume n).busy = s.busy := rfl
@[simp] theorem State.consume_permuting (n : Nat) : (s.consume n).permuting = s.permuting := rfl
@[simp] theorem State.consume_cmdIn (n : Nat) : (s.consume n).cmdIn = s.cmdIn.drop n := rfl
@[simp] theorem State.consume_respOut (n : Nat) : (s.consume n).respOut = s.respOut := rfl
@[simp] theorem State.consume_trace (n : Nat) : (s.consume n).trace = s.trace := rfl
@[simp] theorem State.consume_resets (n : Nat) : (s.consume n).resets = s.resets := rfl

/-! ### `State.load` -/

@[simp] theorem State.load_lanes (c : ByteString) : (s.load c).lanes = s.lanes := rfl
@[simp] theorem State.load_phase (c : ByteString) : (s.load c).phase = s.phase := rfl
@[simp] theorem State.load_mode (c : ByteString) : (s.load c).mode = s.mode := rfl
@[simp] theorem State.load_seq (c : ByteString) : (s.load c).seq = s.seq := rfl
@[simp] theorem State.load_err (c : ByteString) : (s.load c).err = s.err := rfl
@[simp] theorem State.load_cause (c : ByteString) : (s.load c).cause = s.cause := rfl
@[simp] theorem State.load_valid (c : ByteString) : (s.load c).valid = s.valid := rfl
@[simp] theorem State.load_acc (c : ByteString) : (s.load c).acc = s.acc := rfl
@[simp] theorem State.load_chk (c : ByteString) : (s.load c).chk = s.chk := rfl
@[simp] theorem State.load_rnd (c : ByteString) : (s.load c).rnd = s.rnd := rfl
@[simp] theorem State.load_stp (c : ByteString) : (s.load c).stp = s.stp := rfl
@[simp] theorem State.load_staging (c : ByteString) : (s.load c).staging = c := rfl
@[simp] theorem State.load_busy (c : ByteString) : (s.load c).busy = s.busy := rfl
@[simp] theorem State.load_permuting (c : ByteString) : (s.load c).permuting = s.permuting := rfl
@[simp] theorem State.load_cmdIn (c : ByteString) : (s.load c).cmdIn = s.cmdIn := rfl
@[simp] theorem State.load_respOut (c : ByteString) : (s.load c).respOut = s.respOut := rfl
@[simp] theorem State.load_trace (c : ByteString) : (s.load c).trace = s.trace := rfl
@[simp] theorem State.load_resets (c : ByteString) : (s.load c).resets = s.resets := rfl

/-! ### `State.nextChunk` -/

@[simp] theorem State.nextChunk_lanes : s.nextChunk.lanes = s.lanes := rfl
@[simp] theorem State.nextChunk_phase : s.nextChunk.phase = s.phase := rfl
@[simp] theorem State.nextChunk_mode : s.nextChunk.mode = s.mode := rfl
@[simp] theorem State.nextChunk_seq : s.nextChunk.seq = s.seq := rfl
@[simp] theorem State.nextChunk_err : s.nextChunk.err = s.err := rfl
@[simp] theorem State.nextChunk_cause : s.nextChunk.cause = s.cause := rfl
@[simp] theorem State.nextChunk_valid : s.nextChunk.valid = s.valid := rfl
@[simp] theorem State.nextChunk_acc : s.nextChunk.acc = s.acc := rfl
@[simp] theorem State.nextChunk_chk : s.nextChunk.chk = s.chk + 1 := rfl
@[simp] theorem State.nextChunk_rnd : s.nextChunk.rnd = s.rnd := rfl
@[simp] theorem State.nextChunk_stp : s.nextChunk.stp = s.stp := rfl
@[simp] theorem State.nextChunk_staging : s.nextChunk.staging = [] := rfl
@[simp] theorem State.nextChunk_busy : s.nextChunk.busy = s.busy := rfl
@[simp] theorem State.nextChunk_permuting : s.nextChunk.permuting = s.permuting := rfl
@[simp] theorem State.nextChunk_cmdIn : s.nextChunk.cmdIn = s.cmdIn := rfl
@[simp] theorem State.nextChunk_respOut : s.nextChunk.respOut = s.respOut := rfl
@[simp] theorem State.nextChunk_trace : s.nextChunk.trace = s.trace := rfl
@[simp] theorem State.nextChunk_resets : s.nextChunk.resets = s.resets := rfl

/-! ### `State.sequencer0` -/

@[simp] theorem State.sequencer0_lanes (b : Bool) : (s.sequencer0 b).lanes = s.lanes := rfl
@[simp] theorem State.sequencer0_phase (b : Bool) : (s.sequencer0 b).phase = s.phase := rfl
@[simp] theorem State.sequencer0_mode (b : Bool) : (s.sequencer0 b).mode = s.mode := rfl
@[simp] theorem State.sequencer0_seq (b : Bool) : (s.sequencer0 b).seq = s.seq := rfl
@[simp] theorem State.sequencer0_err (b : Bool) : (s.sequencer0 b).err = s.err := rfl
@[simp] theorem State.sequencer0_cause (b : Bool) : (s.sequencer0 b).cause = s.cause := rfl
@[simp] theorem State.sequencer0_valid (b : Bool) : (s.sequencer0 b).valid = s.valid := rfl
@[simp] theorem State.sequencer0_acc (b : Bool) : (s.sequencer0 b).acc = s.acc := rfl
@[simp] theorem State.sequencer0_chk (b : Bool) : (s.sequencer0 b).chk = 0 := rfl
@[simp] theorem State.sequencer0_rnd (b : Bool) : (s.sequencer0 b).rnd = 0 := rfl
@[simp] theorem State.sequencer0_stp (b : Bool) : (s.sequencer0 b).stp = 0 := rfl
@[simp] theorem State.sequencer0_staging (b : Bool) : (s.sequencer0 b).staging = [] := rfl
@[simp] theorem State.sequencer0_busy (b : Bool) : (s.sequencer0 b).busy = b := rfl
@[simp] theorem State.sequencer0_permuting (b : Bool) : (s.sequencer0 b).permuting = false := rfl
@[simp] theorem State.sequencer0_cmdIn (b : Bool) : (s.sequencer0 b).cmdIn = s.cmdIn := rfl
@[simp] theorem State.sequencer0_respOut (b : Bool) : (s.sequencer0 b).respOut = s.respOut := rfl
@[simp] theorem State.sequencer0_trace (b : Bool) : (s.sequencer0 b).trace = s.trace := rfl
@[simp] theorem State.sequencer0_resets (b : Bool) : (s.sequencer0 b).resets = s.resets := rfl

/-! ### `State.newInstance` -/

@[simp] theorem State.newInstance_lanes (m : Mode) : (s.newInstance m).lanes = Lanes.zero := rfl
@[simp] theorem State.newInstance_phase (m : Mode) : (s.newInstance m).phase = .up := rfl
@[simp] theorem State.newInstance_mode (m : Mode) : (s.newInstance m).mode = m := rfl
@[simp] theorem State.newInstance_seq (m : Mode) : (s.newInstance m).seq = s.seq := rfl
@[simp] theorem State.newInstance_err (m : Mode) : (s.newInstance m).err = false := rfl
@[simp] theorem State.newInstance_cause (m : Mode) : (s.newInstance m).cause = 0 := rfl
@[simp] theorem State.newInstance_valid (m : Mode) : (s.newInstance m).valid = false := rfl
@[simp] theorem State.newInstance_acc (m : Mode) : (s.newInstance m).acc = 0 := rfl
@[simp] theorem State.newInstance_chk (m : Mode) : (s.newInstance m).chk = s.chk := rfl
@[simp] theorem State.newInstance_rnd (m : Mode) : (s.newInstance m).rnd = s.rnd := rfl
@[simp] theorem State.newInstance_stp (m : Mode) : (s.newInstance m).stp = s.stp := rfl
@[simp] theorem State.newInstance_staging (m : Mode) : (s.newInstance m).staging = s.staging := rfl
@[simp] theorem State.newInstance_busy (m : Mode) : (s.newInstance m).busy = s.busy := rfl
@[simp] theorem State.newInstance_permuting (m : Mode) : (s.newInstance m).permuting = s.permuting := rfl
@[simp] theorem State.newInstance_cmdIn (m : Mode) : (s.newInstance m).cmdIn = s.cmdIn := rfl
@[simp] theorem State.newInstance_respOut (m : Mode) : (s.newInstance m).respOut = s.respOut := rfl
@[simp] theorem State.newInstance_trace (m : Mode) : (s.newInstance m).trace = s.trace := rfl
@[simp] theorem State.newInstance_resets (m : Mode) : (s.newInstance m).resets = s.resets := rfl

/-! ### `State.beginCommand` -/

@[simp] theorem State.beginCommand_lanes : s.beginCommand.lanes = s.lanes := rfl
@[simp] theorem State.beginCommand_phase : s.beginCommand.phase = s.phase := rfl
@[simp] theorem State.beginCommand_mode : s.beginCommand.mode = s.mode := rfl
@[simp] theorem State.beginCommand_seq : s.beginCommand.seq = s.seq := rfl
@[simp] theorem State.beginCommand_err : s.beginCommand.err = s.err := rfl
@[simp] theorem State.beginCommand_cause : s.beginCommand.cause = s.cause := rfl
@[simp] theorem State.beginCommand_valid : s.beginCommand.valid = s.valid := rfl
@[simp] theorem State.beginCommand_acc : s.beginCommand.acc = s.acc := rfl
@[simp] theorem State.beginCommand_chk : s.beginCommand.chk = 0 := rfl
@[simp] theorem State.beginCommand_rnd : s.beginCommand.rnd = 0 := rfl
@[simp] theorem State.beginCommand_stp : s.beginCommand.stp = 0 := rfl
@[simp] theorem State.beginCommand_staging : s.beginCommand.staging = [] := rfl
@[simp] theorem State.beginCommand_busy : s.beginCommand.busy = true := rfl
@[simp] theorem State.beginCommand_permuting : s.beginCommand.permuting = false := rfl
@[simp] theorem State.beginCommand_cmdIn : s.beginCommand.cmdIn = s.cmdIn := rfl
@[simp] theorem State.beginCommand_respOut : s.beginCommand.respOut = s.respOut ++ [statusOk] := rfl
@[simp] theorem State.beginCommand_trace : s.beginCommand.trace = s.trace := rfl
@[simp] theorem State.beginCommand_resets : s.beginCommand.resets = s.resets := rfl

/-! ### `State.endCommand` -/

@[simp] theorem State.endCommand_lanes : s.endCommand.lanes = s.lanes := rfl
@[simp] theorem State.endCommand_phase : s.endCommand.phase = s.phase := rfl
@[simp] theorem State.endCommand_mode : s.endCommand.mode = s.mode := rfl
@[simp] theorem State.endCommand_seq : s.endCommand.seq = s.seq := rfl
@[simp] theorem State.endCommand_err : s.endCommand.err = s.err := rfl
@[simp] theorem State.endCommand_cause : s.endCommand.cause = s.cause := rfl
@[simp] theorem State.endCommand_valid : s.endCommand.valid = s.valid := rfl
@[simp] theorem State.endCommand_acc : s.endCommand.acc = s.acc := rfl
@[simp] theorem State.endCommand_chk : s.endCommand.chk = 0 := rfl
@[simp] theorem State.endCommand_rnd : s.endCommand.rnd = 0 := rfl
@[simp] theorem State.endCommand_stp : s.endCommand.stp = 0 := rfl
@[simp] theorem State.endCommand_staging : s.endCommand.staging = [] := rfl
@[simp] theorem State.endCommand_busy : s.endCommand.busy = false := rfl
@[simp] theorem State.endCommand_permuting : s.endCommand.permuting = false := rfl
@[simp] theorem State.endCommand_cmdIn : s.endCommand.cmdIn = s.cmdIn := rfl
@[simp] theorem State.endCommand_respOut : s.endCommand.respOut = s.respOut := rfl
@[simp] theorem State.endCommand_trace : s.endCommand.trace = s.trace := rfl
@[simp] theorem State.endCommand_resets : s.endCommand.resets = s.resets := rfl

/-! ### `State.recordFault` -/

@[simp] theorem State.recordFault_lanes (f : Raised) : (s.recordFault f).lanes = s.lanes := by
  unfold State.recordFault; split <;> rfl
@[simp] theorem State.recordFault_phase (f : Raised) : (s.recordFault f).phase = s.phase := by
  unfold State.recordFault; split <;> rfl
@[simp] theorem State.recordFault_mode (f : Raised) : (s.recordFault f).mode = s.mode := by
  unfold State.recordFault; split <;> rfl
@[simp] theorem State.recordFault_seq (f : Raised) : (s.recordFault f).seq = s.seq := by
  unfold State.recordFault; split <;> rfl
@[simp] theorem State.recordFault_err (f : Raised) : (s.recordFault f).err = true := by
  unfold State.recordFault; split <;> simp_all
@[simp] theorem State.recordFault_cause (f : Raised) :
    (s.recordFault f).cause = if s.err then s.cause else f.cause := by
  unfold State.recordFault; split <;> rfl
@[simp] theorem State.recordFault_valid (f : Raised) : (s.recordFault f).valid = s.valid := by
  unfold State.recordFault; split <;> rfl
@[simp] theorem State.recordFault_acc (f : Raised) : (s.recordFault f).acc = s.acc := by
  unfold State.recordFault; split <;> rfl
@[simp] theorem State.recordFault_chk (f : Raised) : (s.recordFault f).chk = s.chk := by
  unfold State.recordFault; split <;> rfl
@[simp] theorem State.recordFault_rnd (f : Raised) : (s.recordFault f).rnd = s.rnd := by
  unfold State.recordFault; split <;> rfl
@[simp] theorem State.recordFault_stp (f : Raised) : (s.recordFault f).stp = s.stp := by
  unfold State.recordFault; split <;> rfl
@[simp] theorem State.recordFault_staging (f : Raised) : (s.recordFault f).staging = s.staging := by
  unfold State.recordFault; split <;> rfl
@[simp] theorem State.recordFault_busy (f : Raised) : (s.recordFault f).busy = s.busy := by
  unfold State.recordFault; split <;> rfl
@[simp] theorem State.recordFault_permuting (f : Raised) : (s.recordFault f).permuting = s.permuting := by
  unfold State.recordFault; split <;> rfl
@[simp] theorem State.recordFault_cmdIn (f : Raised) : (s.recordFault f).cmdIn = s.cmdIn := by
  unfold State.recordFault; split <;> rfl
@[simp] theorem State.recordFault_respOut (f : Raised) : (s.recordFault f).respOut = s.respOut := by
  unfold State.recordFault; split <;> rfl
@[simp] theorem State.recordFault_trace (f : Raised) : (s.recordFault f).trace = s.trace := by
  unfold State.recordFault; split <;> rfl
@[simp] theorem State.recordFault_resets (f : Raised) : (s.recordFault f).resets = s.resets := by
  unfold State.recordFault; split <;> rfl

end

end Sys2Proof.Machine
end

