-- ==== Sys2Proof/Laws/Ops.lean ====
section
/-! SUPPORT. What each shared operation of Machine/Ops.lean does, field by field: the lemmas later
proofs cite instead of unfolding an operation. -/

namespace Sys2Proof.Machine

variable (s : State)

/-! ### Raising a fault and the command boundary -/

/-- All that `raise` does (60_exceptions R195). -/
theorem raise_spec (f : Raised) :
    raise f s = { s with
        err := true
        cause := if s.err then s.cause else f.cause
        chk := 0
        rnd := 0
        stp := 0
        staging := []
        busy := false
        permuting := false
        respOut := s.respOut ++ [f.status] } := by
  unfold raise State.recordFault
  split <;> simp_all [State.emit, State.endCommand, State.sequencer0]

@[simp] theorem raise_lanes (f : Raised) : (raise f s).lanes = s.lanes := by simp [raise]
@[simp] theorem raise_phase (f : Raised) : (raise f s).phase = s.phase := by simp [raise]
@[simp] theorem raise_mode (f : Raised) : (raise f s).mode = s.mode := by simp [raise]
@[simp] theorem raise_seq (f : Raised) : (raise f s).seq = s.seq := by simp [raise]
@[simp] theorem raise_valid (f : Raised) : (raise f s).valid = s.valid := by simp [raise]
@[simp] theorem raise_acc (f : Raised) : (raise f s).acc = s.acc := by simp [raise]
@[simp] theorem raise_cmdIn (f : Raised) : (raise f s).cmdIn = s.cmdIn := by simp [raise]
@[simp] theorem raise_trace (f : Raised) : (raise f s).trace = s.trace := by simp [raise]
@[simp] theorem raise_resets (f : Raised) : (raise f s).resets = s.resets := by simp [raise]
@[simp] theorem raise_err (f : Raised) : (raise f s).err = true := by simp [raise]
@[simp] theorem raise_cause (f : Raised) : (raise f s).cause = if s.err then s.cause else f.cause := by simp [raise]
@[simp] theorem raise_chk (f : Raised) : (raise f s).chk = 0 := by simp [raise]
@[simp] theorem raise_rnd (f : Raised) : (raise f s).rnd = 0 := by simp [raise]
@[simp] theorem raise_stp (f : Raised) : (raise f s).stp = 0 := by simp [raise]
@[simp] theorem raise_staging (f : Raised) : (raise f s).staging = [] := by simp [raise]
@[simp] theorem raise_busy (f : Raised) : (raise f s).busy = false := by simp [raise]
@[simp] theorem raise_permuting (f : Raised) : (raise f s).permuting = false := by simp [raise]
@[simp] theorem raise_respOut (f : Raised) : (raise f s).respOut = s.respOut ++ [f.status] := by simp [raise]

/-- A faulting command keeps the instance (60_exceptions R195). -/
theorem raise_sameInstance (f : Raised) : (raise f s).lanes = s.lanes ∧ (raise f s).phase = s.phase ∧
    (raise f s).mode = s.mode ∧ (raise f s).seq = s.seq ∧ (raise f s).acc = s.acc ∧ (raise f s).valid = s.valid := by
  simp

theorem guarded_fault {k : CmdKind} {f : Raised} (body : State → State) (h : prologueFault k s = some f) :
    guarded k body s = raise f s := by simp [guarded, h]

theorem guarded_ok {k : CmdKind} (body : State → State) (h : prologueFault k s = none) :
    guarded k body s = body s := by simp [guarded, h]

/-! ### The duplex primitives -/

/-! `up` -/

@[simp] theorem up_mode (cu : Byte) : (up cu s).mode = s.mode := by simp [up]
@[simp] theorem up_seq (cu : Byte) : (up cu s).seq = s.seq := by simp [up]
@[simp] theorem up_err (cu : Byte) : (up cu s).err = s.err := by simp [up]
@[simp] theorem up_cause (cu : Byte) : (up cu s).cause = s.cause := by simp [up]
@[simp] theorem up_valid (cu : Byte) : (up cu s).valid = s.valid := by simp [up]
@[simp] theorem up_acc (cu : Byte) : (up cu s).acc = s.acc := by simp [up]
@[simp] theorem up_chk (cu : Byte) : (up cu s).chk = s.chk := by simp [up]
@[simp] theorem up_rnd (cu : Byte) : (up cu s).rnd = s.rnd := by simp [up]
@[simp] theorem up_stp (cu : Byte) : (up cu s).stp = s.stp := by simp [up]
@[simp] theorem up_staging (cu : Byte) : (up cu s).staging = s.staging := by simp [up]
@[simp] theorem up_busy (cu : Byte) : (up cu s).busy = s.busy := by simp [up]
@[simp] theorem up_permuting (cu : Byte) : (up cu s).permuting = s.permuting := by simp [up]
@[simp] theorem up_cmdIn (cu : Byte) : (up cu s).cmdIn = s.cmdIn := by simp [up]
@[simp] theorem up_resets (cu : Byte) : (up cu s).resets = s.resets := by simp [up]
@[simp] theorem up_lanes (cu : Byte) : (up cu s).lanes = permute (upInject s.mode cu s.lanes) := by simp [up]
@[simp] theorem up_phase (cu : Byte) : (up cu s).phase = .up := by simp [up]
@[simp] theorem up_trace (cu : Byte) : (up cu s).trace = s.trace ++ [.up cu] := by simp [up]
@[simp] theorem up_respOut (cu : Byte) : (up cu s).respOut = s.respOut := by simp [up]

/-! `down` -/

@[simp] theorem down_mode (x : ByteString) (cd : Byte) : (down x cd s).mode = s.mode := by simp [down]
@[simp] theorem down_seq (x : ByteString) (cd : Byte) : (down x cd s).seq = s.seq := by simp [down]
@[simp] theorem down_err (x : ByteString) (cd : Byte) : (down x cd s).err = s.err := by simp [down]
@[simp] theorem down_cause (x : ByteString) (cd : Byte) : (down x cd s).cause = s.cause := by simp [down]
@[simp] theorem down_valid (x : ByteString) (cd : Byte) : (down x cd s).valid = s.valid := by simp [down]
@[simp] theorem down_acc (x : ByteString) (cd : Byte) : (down x cd s).acc = s.acc := by simp [down]
@[simp] theorem down_chk (x : ByteString) (cd : Byte) : (down x cd s).chk = s.chk := by simp [down]
@[simp] theorem down_rnd (x : ByteString) (cd : Byte) : (down x cd s).rnd = s.rnd := by simp [down]
@[simp] theorem down_stp (x : ByteString) (cd : Byte) : (down x cd s).stp = s.stp := by simp [down]
@[simp] theorem down_staging (x : ByteString) (cd : Byte) : (down x cd s).staging = s.staging := by simp [down]
@[simp] theorem down_busy (x : ByteString) (cd : Byte) : (down x cd s).busy = s.busy := by simp [down]
@[simp] theorem down_permuting (x : ByteString) (cd : Byte) : (down x cd s).permuting = s.permuting := by simp [down]
@[simp] theorem down_cmdIn (x : ByteString) (cd : Byte) : (down x cd s).cmdIn = s.cmdIn := by simp [down]
@[simp] theorem down_resets (x : ByteString) (cd : Byte) : (down x cd s).resets = s.resets := by simp [down]
@[simp] theorem down_lanes (x : ByteString) (cd : Byte) : (down x cd s).lanes = padAndCode x.length (downCode s.mode cd) (s.lanes.memXor 0 x) := by simp [down]
@[simp] theorem down_phase (x : ByteString) (cd : Byte) : (down x cd s).phase = .down := by simp [down]
@[simp] theorem down_trace (x : ByteString) (cd : Byte) : (down x cd s).trace = s.trace ++ [.down x.length cd] := by simp [down]
@[simp] theorem down_respOut (x : ByteString) (cd : Byte) : (down x cd s).respOut = s.respOut := by simp [down]

/-! `downOvr` -/

@[simp] theorem downOvr_mode (x : ByteString) (cd : Byte) : (downOvr x cd s).mode = s.mode := by simp [downOvr]
@[simp] theorem downOvr_seq (x : ByteString) (cd : Byte) : (downOvr x cd s).seq = s.seq := by simp [downOvr]
@[simp] theorem downOvr_err (x : ByteString) (cd : Byte) : (downOvr x cd s).err = s.err := by simp [downOvr]
@[simp] theorem downOvr_cause (x : ByteString) (cd : Byte) : (downOvr x cd s).cause = s.cause := by simp [downOvr]
@[simp] theorem downOvr_valid (x : ByteString) (cd : Byte) : (downOvr x cd s).valid = s.valid := by simp [downOvr]
@[simp] theorem downOvr_acc (x : ByteString) (cd : Byte) : (downOvr x cd s).acc = s.acc := by simp [downOvr]
@[simp] theorem downOvr_chk (x : ByteString) (cd : Byte) : (downOvr x cd s).chk = s.chk := by simp [downOvr]
@[simp] theorem downOvr_rnd (x : ByteString) (cd : Byte) : (downOvr x cd s).rnd = s.rnd := by simp [downOvr]
@[simp] theorem downOvr_stp (x : ByteString) (cd : Byte) : (downOvr x cd s).stp = s.stp := by simp [downOvr]
@[simp] theorem downOvr_staging (x : ByteString) (cd : Byte) : (downOvr x cd s).staging = s.staging := by simp [downOvr]
@[simp] theorem downOvr_busy (x : ByteString) (cd : Byte) : (downOvr x cd s).busy = s.busy := by simp [downOvr]
@[simp] theorem downOvr_permuting (x : ByteString) (cd : Byte) : (downOvr x cd s).permuting = s.permuting := by simp [downOvr]
@[simp] theorem downOvr_cmdIn (x : ByteString) (cd : Byte) : (downOvr x cd s).cmdIn = s.cmdIn := by simp [downOvr]
@[simp] theorem downOvr_resets (x : ByteString) (cd : Byte) : (downOvr x cd s).resets = s.resets := by simp [downOvr]
@[simp] theorem downOvr_lanes (x : ByteString) (cd : Byte) : (downOvr x cd s).lanes = padAndCode x.length cd (s.lanes.memWrite 0 x) := by simp [downOvr]
@[simp] theorem downOvr_phase (x : ByteString) (cd : Byte) : (downOvr x cd s).phase = .down := by simp [downOvr]
@[simp] theorem downOvr_trace (x : ByteString) (cd : Byte) : (downOvr x cd s).trace = s.trace ++ [.downOvr x.length cd] := by simp [downOvr]
@[simp] theorem downOvr_respOut (x : ByteString) (cd : Byte) : (downOvr x cd s).respOut = s.respOut := by simp [downOvr]

/-! `ensureUp` -/

@[simp] theorem ensureUp_mode  : (ensureUp s).mode = s.mode := by unfold ensureUp; split <;> simp_all
@[simp] theorem ensureUp_seq  : (ensureUp s).seq = s.seq := by unfold ensureUp; split <;> simp_all
@[simp] theorem ensureUp_err  : (ensureUp s).err = s.err := by unfold ensureUp; split <;> simp_all
@[simp] theorem ensureUp_cause  : (ensureUp s).cause = s.cause := by unfold ensureUp; split <;> simp_all
@[simp] theorem ensureUp_valid  : (ensureUp s).valid = s.valid := by unfold ensureUp; split <;> simp_all
@[simp] theorem ensureUp_acc  : (ensureUp s).acc = s.acc := by unfold ensureUp; split <;> simp_all
@[simp] theorem ensureUp_chk  : (ensureUp s).chk = s.chk := by unfold ensureUp; split <;> simp_all
@[simp] theorem ensureUp_rnd  : (ensureUp s).rnd = s.rnd := by unfold ensureUp; split <;> simp_all
@[simp] theorem ensureUp_stp  : (ensureUp s).stp = s.stp := by unfold ensureUp; split <;> simp_all
@[simp] theorem ensureUp_staging  : (ensureUp s).staging = s.staging := by unfold ensureUp; split <;> simp_all
@[simp] theorem ensureUp_busy  : (ensureUp s).busy = s.busy := by unfold ensureUp; split <;> simp_all
@[simp] theorem ensureUp_permuting  : (ensureUp s).permuting = s.permuting := by unfold ensureUp; split <;> simp_all
@[simp] theorem ensureUp_cmdIn  : (ensureUp s).cmdIn = s.cmdIn := by unfold ensureUp; split <;> simp_all
@[simp] theorem ensureUp_resets  : (ensureUp s).resets = s.resets := by unfold ensureUp; split <;> simp_all
@[simp] theorem ensureUp_phase  : (ensureUp s).phase = .up := by unfold ensureUp; split <;> simp_all
@[simp] theorem ensureUp_respOut  : (ensureUp s).respOut = s.respOut := by unfold ensureUp; split <;> simp_all

/-! `emitLead` -/

@[simp] theorem emitLead_mode (n : Nat) : (emitLead n s).mode = s.mode := by simp [emitLead]
@[simp] theorem emitLead_seq (n : Nat) : (emitLead n s).seq = s.seq := by simp [emitLead]
@[simp] theorem emitLead_err (n : Nat) : (emitLead n s).err = s.err := by simp [emitLead]
@[simp] theorem emitLead_cause (n : Nat) : (emitLead n s).cause = s.cause := by simp [emitLead]
@[simp] theorem emitLead_valid (n : Nat) : (emitLead n s).valid = s.valid := by simp [emitLead]
@[simp] theorem emitLead_acc (n : Nat) : (emitLead n s).acc = s.acc := by simp [emitLead]
@[simp] theorem emitLead_chk (n : Nat) : (emitLead n s).chk = s.chk := by simp [emitLead]
@[simp] theorem emitLead_rnd (n : Nat) : (emitLead n s).rnd = s.rnd := by simp [emitLead]
@[simp] theorem emitLead_stp (n : Nat) : (emitLead n s).stp = s.stp := by simp [emitLead]
@[simp] theorem emitLead_staging (n : Nat) : (emitLead n s).staging = s.staging := by simp [emitLead]
@[simp] theorem emitLead_busy (n : Nat) : (emitLead n s).busy = s.busy := by simp [emitLead]
@[simp] theorem emitLead_permuting (n : Nat) : (emitLead n s).permuting = s.permuting := by simp [emitLead]
@[simp] theorem emitLead_cmdIn (n : Nat) : (emitLead n s).cmdIn = s.cmdIn := by simp [emitLead]
@[simp] theorem emitLead_resets (n : Nat) : (emitLead n s).resets = s.resets := by simp [emitLead]
@[simp] theorem emitLead_lanes (n : Nat) : (emitLead n s).lanes = s.lanes := by simp [emitLead]
@[simp] theorem emitLead_phase (n : Nat) : (emitLead n s).phase = s.phase := by simp [emitLead]
@[simp] theorem emitLead_trace (n : Nat) : (emitLead n s).trace = s.trace ++ [.lead n] := by simp [emitLead]
@[simp] theorem emitLead_respOut (n : Nat) : (emitLead n s).respOut = s.respOut ++ lead n s := by simp [emitLead]

/-! `feedBack` -/

@[simp] theorem feedBack_mode (p : Profile) (x : ByteString) : (feedBack p x s).mode = s.mode := by unfold feedBack; split <;> simp
@[simp] theorem feedBack_seq (p : Profile) (x : ByteString) : (feedBack p x s).seq = s.seq := by unfold feedBack; split <;> simp
@[simp] theorem feedBack_err (p : Profile) (x : ByteString) : (feedBack p x s).err = s.err := by unfold feedBack; split <;> simp
@[simp] theorem feedBack_cause (p : Profile) (x : ByteString) : (feedBack p x s).cause = s.cause := by unfold feedBack; split <;> simp
@[simp] theorem feedBack_valid (p : Profile) (x : ByteString) : (feedBack p x s).valid = s.valid := by unfold feedBack; split <;> simp
@[simp] theorem feedBack_acc (p : Profile) (x : ByteString) : (feedBack p x s).acc = s.acc := by unfold feedBack; split <;> simp
@[simp] theorem feedBack_chk (p : Profile) (x : ByteString) : (feedBack p x s).chk = s.chk := by unfold feedBack; split <;> simp
@[simp] theorem feedBack_rnd (p : Profile) (x : ByteString) : (feedBack p x s).rnd = s.rnd := by unfold feedBack; split <;> simp
@[simp] theorem feedBack_stp (p : Profile) (x : ByteString) : (feedBack p x s).stp = s.stp := by unfold feedBack; split <;> simp
@[simp] theorem feedBack_staging (p : Profile) (x : ByteString) : (feedBack p x s).staging = s.staging := by unfold feedBack; split <;> simp
@[simp] theorem feedBack_busy (p : Profile) (x : ByteString) : (feedBack p x s).busy = s.busy := by unfold feedBack; split <;> simp
@[simp] theorem feedBack_permuting (p : Profile) (x : ByteString) : (feedBack p x s).permuting = s.permuting := by unfold feedBack; split <;> simp
@[simp] theorem feedBack_cmdIn (p : Profile) (x : ByteString) : (feedBack p x s).cmdIn = s.cmdIn := by unfold feedBack; split <;> simp
@[simp] theorem feedBack_resets (p : Profile) (x : ByteString) : (feedBack p x s).resets = s.resets := by unfold feedBack; split <;> simp
@[simp] theorem feedBack_phase (p : Profile) (x : ByteString) : (feedBack p x s).phase = .down := by unfold feedBack; split <;> simp
@[simp] theorem feedBack_respOut (p : Profile) (x : ByteString) : (feedBack p x s).respOut = s.respOut := by unfold feedBack; split <;> simp

/-! `absorbChunk` -/

@[simp] theorem absorbChunk_mode (p : Profile) : (absorbChunk p s).mode = s.mode := by simp [absorbChunk]
@[simp] theorem absorbChunk_seq (p : Profile) : (absorbChunk p s).seq = s.seq := by simp [absorbChunk]
@[simp] theorem absorbChunk_err (p : Profile) : (absorbChunk p s).err = s.err := by simp [absorbChunk]
@[simp] theorem absorbChunk_cause (p : Profile) : (absorbChunk p s).cause = s.cause := by simp [absorbChunk]
@[simp] theorem absorbChunk_valid (p : Profile) : (absorbChunk p s).valid = s.valid := by simp [absorbChunk]
@[simp] theorem absorbChunk_acc (p : Profile) : (absorbChunk p s).acc = s.acc := by simp [absorbChunk]
@[simp] theorem absorbChunk_chk (p : Profile) : (absorbChunk p s).chk = s.chk := by simp [absorbChunk]
@[simp] theorem absorbChunk_rnd (p : Profile) : (absorbChunk p s).rnd = s.rnd := by simp [absorbChunk]
@[simp] theorem absorbChunk_stp (p : Profile) : (absorbChunk p s).stp = s.stp := by simp [absorbChunk]
@[simp] theorem absorbChunk_staging (p : Profile) : (absorbChunk p s).staging = s.staging := by simp [absorbChunk]
@[simp] theorem absorbChunk_busy (p : Profile) : (absorbChunk p s).busy = s.busy := by simp [absorbChunk]
@[simp] theorem absorbChunk_permuting (p : Profile) : (absorbChunk p s).permuting = s.permuting := by simp [absorbChunk]
@[simp] theorem absorbChunk_cmdIn (p : Profile) : (absorbChunk p s).cmdIn = s.cmdIn := by simp [absorbChunk]
@[simp] theorem absorbChunk_resets (p : Profile) : (absorbChunk p s).resets = s.resets := by simp [absorbChunk]
@[simp] theorem absorbChunk_phase (p : Profile) : (absorbChunk p s).phase = .down := by simp [absorbChunk]
@[simp] theorem absorbChunk_respOut (p : Profile) : (absorbChunk p s).respOut = s.respOut := by simp [absorbChunk]

/-! `cryptChunk` -/

@[simp] theorem cryptChunk_mode (p : Profile) (d : Direction) : (cryptChunk p d s).mode = s.mode := by simp [cryptChunk]
@[simp] theorem cryptChunk_seq (p : Profile) (d : Direction) : (cryptChunk p d s).seq = s.seq := by simp [cryptChunk]
@[simp] theorem cryptChunk_err (p : Profile) (d : Direction) : (cryptChunk p d s).err = s.err := by simp [cryptChunk]
@[simp] theorem cryptChunk_cause (p : Profile) (d : Direction) : (cryptChunk p d s).cause = s.cause := by simp [cryptChunk]
@[simp] theorem cryptChunk_valid (p : Profile) (d : Direction) : (cryptChunk p d s).valid = s.valid := by simp [cryptChunk]
@[simp] theorem cryptChunk_acc (p : Profile) (d : Direction) : (cryptChunk p d s).acc = s.acc := by simp [cryptChunk]
@[simp] theorem cryptChunk_chk (p : Profile) (d : Direction) : (cryptChunk p d s).chk = s.chk := by simp [cryptChunk]
@[simp] theorem cryptChunk_rnd (p : Profile) (d : Direction) : (cryptChunk p d s).rnd = s.rnd := by simp [cryptChunk]
@[simp] theorem cryptChunk_stp (p : Profile) (d : Direction) : (cryptChunk p d s).stp = s.stp := by simp [cryptChunk]
@[simp] theorem cryptChunk_staging (p : Profile) (d : Direction) : (cryptChunk p d s).staging = s.staging := by simp [cryptChunk]
@[simp] theorem cryptChunk_busy (p : Profile) (d : Direction) : (cryptChunk p d s).busy = s.busy := by simp [cryptChunk]
@[simp] theorem cryptChunk_permuting (p : Profile) (d : Direction) : (cryptChunk p d s).permuting = s.permuting := by simp [cryptChunk]
@[simp] theorem cryptChunk_cmdIn (p : Profile) (d : Direction) : (cryptChunk p d s).cmdIn = s.cmdIn := by simp [cryptChunk]
@[simp] theorem cryptChunk_resets (p : Profile) (d : Direction) : (cryptChunk p d s).resets = s.resets := by simp [cryptChunk]
@[simp] theorem cryptChunk_phase (p : Profile) (d : Direction) : (cryptChunk p d s).phase = .down := by simp [cryptChunk]
@[simp] theorem cryptChunk_respOut (p : Profile) (d : Direction) : (cryptChunk p d s).respOut = s.respOut ++ xorBytes s.staging (lead s.staging.length (up (cuCrypt s.chk) s)) := by simp [cryptChunk]

/-! ### The loops -/

/-- What a chunk's handling keeps, and staging and `CHK` do not touch, the loop keeps. -/
theorem eachChunk_keeps {α : Type} (get : State → α) (body : State → State)
    (hbody : ∀ t, get (body t) = get t) (hload : ∀ c t, get (t.load c) = get t)
    (hnext : ∀ t, get t.nextChunk = get t) (cs : List ByteString) (s : State) :
    get (eachChunk body cs s) = get s := by
  induction cs generalizing s with
  | nil => rfl
  | cons c cs ih => simp [eachChunk, ih, hnext, hbody, hload]

/-- The loop leaves the phase its last chunk left. -/
theorem eachChunk_phase {body : State → State} {p : Phase} (hbody : ∀ t, (body t).phase = p)
    {cs : List ByteString} (hcs : cs ≠ []) (s : State) : (eachChunk body cs s).phase = p := by
  induction cs generalizing s with
  | nil => exact absurd rfl hcs
  | cons c cs ih =>
    by_cases h : cs = []
    · simp [h, eachChunk, hbody]
    · simpa [eachChunk] using ih h _

/-- Two states related before the loop are related after it, if the handling of one chunk and the
bookkeeping keep the relation. -/
theorem eachChunk_related {R : State → State → Prop} {body body' : State → State}
    (hstep : ∀ c t t', R t t' → R (body (t.load c)).nextChunk (body' (t'.load c)).nextChunk)
    (cs : List ByteString) {s s' : State} (h : R s s') : R (eachChunk body cs s) (eachChunk body' cs s') := by
  induction cs generalizing s s' with
  | nil => exact h
  | cons c cs ih => exact ih (hstep c s s' h)

@[simp] theorem squeezeBlocks_mode (k n : Nat) : (squeezeBlocks k n s).mode = s.mode := by
  induction k generalizing n s with
  | zero => rfl
  | succ k ih => simp [squeezeBlocks, ih]
@[simp] theorem squeezeBlocks_seq (k n : Nat) : (squeezeBlocks k n s).seq = s.seq := by
  induction k generalizing n s with
  | zero => rfl
  | succ k ih => simp [squeezeBlocks, ih]
@[simp] theorem squeezeBlocks_err (k n : Nat) : (squeezeBlocks k n s).err = s.err := by
  induction k generalizing n s with
  | zero => rfl
  | succ k ih => simp [squeezeBlocks, ih]
@[simp] theorem squeezeBlocks_cause (k n : Nat) : (squeezeBlocks k n s).cause = s.cause := by
  induction k generalizing n s with
  | zero => rfl
  | succ k ih => simp [squeezeBlocks, ih]
@[simp] theorem squeezeBlocks_valid (k n : Nat) : (squeezeBlocks k n s).valid = s.valid := by
  induction k generalizing n s with
  | zero => rfl
  | succ k ih => simp [squeezeBlocks, ih]
@[simp] theorem squeezeBlocks_acc (k n : Nat) : (squeezeBlocks k n s).acc = s.acc := by
  induction k generalizing n s with
  | zero => rfl
  | succ k ih => simp [squeezeBlocks, ih]
@[simp] theorem squeezeBlocks_chk (k n : Nat) : (squeezeBlocks k n s).chk = s.chk := by
  induction k generalizing n s with
  | zero => rfl
  | succ k ih => simp [squeezeBlocks, ih]
@[simp] theorem squeezeBlocks_rnd (k n : Nat) : (squeezeBlocks k n s).rnd = s.rnd := by
  induction k generalizing n s with
  | zero => rfl
  | succ k ih => simp [squeezeBlocks, ih]
@[simp] theorem squeezeBlocks_stp (k n : Nat) : (squeezeBlocks k n s).stp = s.stp := by
  induction k generalizing n s with
  | zero => rfl
  | succ k ih => simp [squeezeBlocks, ih]
@[simp] theorem squeezeBlocks_staging (k n : Nat) : (squeezeBlocks k n s).staging = s.staging := by
  induction k generalizing n s with
  | zero => rfl
  | succ k ih => simp [squeezeBlocks, ih]
@[simp] theorem squeezeBlocks_busy (k n : Nat) : (squeezeBlocks k n s).busy = s.busy := by
  induction k generalizing n s with
  | zero => rfl
  | succ k ih => simp [squeezeBlocks, ih]
@[simp] theorem squeezeBlocks_permuting (k n : Nat) : (squeezeBlocks k n s).permuting = s.permuting := by
  induction k generalizing n s with
  | zero => rfl
  | succ k ih => simp [squeezeBlocks, ih]
@[simp] theorem squeezeBlocks_cmdIn (k n : Nat) : (squeezeBlocks k n s).cmdIn = s.cmdIn := by
  induction k generalizing n s with
  | zero => rfl
  | succ k ih => simp [squeezeBlocks, ih]
@[simp] theorem squeezeBlocks_resets (k n : Nat) : (squeezeBlocks k n s).resets = s.resets := by
  induction k generalizing n s with
  | zero => rfl
  | succ k ih => simp [squeezeBlocks, ih]

@[simp] theorem absorbLoop_mode (p : Profile) (cs : List ByteString) :
    (eachChunk (absorbChunk p) cs s).mode = s.mode :=
  eachChunk_keeps State.mode _ (by simp) (by simp) (by simp) cs s
@[simp] theorem absorbLoop_seq (p : Profile) (cs : List ByteString) :
    (eachChunk (absorbChunk p) cs s).seq = s.seq :=
  eachChunk_keeps State.seq _ (by simp) (by simp) (by simp) cs s
@[simp] theorem absorbLoop_err (p : Profile) (cs : List ByteString) :
    (eachChunk (absorbChunk p) cs s).err = s.err :=
  eachChunk_keeps State.err _ (by simp) (by simp) (by simp) cs s
@[simp] theorem absorbLoop_cause (p : Profile) (cs : List ByteString) :
    (eachChunk (absorbChunk p) cs s).cause = s.cause :=
  eachChunk_keeps State.cause _ (by simp) (by simp) (by simp) cs s
@[simp] theorem absorbLoop_valid (p : Profile) (cs : List ByteString) :
    (eachChunk (absorbChunk p) cs s).valid = s.valid :=
  eachChunk_keeps State.valid _ (by simp) (by simp) (by simp) cs s
@[simp] theorem absorbLoop_acc (p : Profile) (cs : List ByteString) :
    (eachChunk (absorbChunk p) cs s).acc = s.acc :=
  eachChunk_keeps State.acc _ (by simp) (by simp) (by simp) cs s
@[simp] theorem absorbLoop_rnd (p : Profile) (cs : List ByteString) :
    (eachChunk (absorbChunk p) cs s).rnd = s.rnd :=
  eachChunk_keeps State.rnd _ (by simp) (by simp) (by simp) cs s
@[simp] theorem absorbLoop_stp (p : Profile) (cs : List ByteString) :
    (eachChunk (absorbChunk p) cs s).stp = s.stp :=
  eachChunk_keeps State.stp _ (by simp) (by simp) (by simp) cs s
@[simp] theorem absorbLoop_busy (p : Profile) (cs : List ByteString) :
    (eachChunk (absorbChunk p) cs s).busy = s.busy :=
  eachChunk_keeps State.busy _ (by simp) (by simp) (by simp) cs s
@[simp] theorem absorbLoop_permuting (p : Profile) (cs : List ByteString) :
    (eachChunk (absorbChunk p) cs s).permuting = s.permuting :=
  eachChunk_keeps State.permuting _ (by simp) (by simp) (by simp) cs s
@[simp] theorem absorbLoop_cmdIn (p : Profile) (cs : List ByteString) :
    (eachChunk (absorbChunk p) cs s).cmdIn = s.cmdIn :=
  eachChunk_keeps State.cmdIn _ (by simp) (by simp) (by simp) cs s
@[simp] theorem absorbLoop_resets (p : Profile) (cs : List ByteString) :
    (eachChunk (absorbChunk p) cs s).resets = s.resets :=
  eachChunk_keeps State.resets _ (by simp) (by simp) (by simp) cs s
@[simp] theorem absorbLoop_respOut (p : Profile) (cs : List ByteString) :
    (eachChunk (absorbChunk p) cs s).respOut = s.respOut :=
  eachChunk_keeps State.respOut _ (by simp) (by simp) (by simp) cs s
@[simp] theorem cryptLoop_mode (p : Profile) (d : Direction) (cs : List ByteString) :
    (eachChunk (cryptChunk p d) cs s).mode = s.mode :=
  eachChunk_keeps State.mode _ (by simp) (by simp) (by simp) cs s
@[simp] theorem cryptLoop_seq (p : Profile) (d : Direction) (cs : List ByteString) :
    (eachChunk (cryptChunk p d) cs s).seq = s.seq :=
  eachChunk_keeps State.seq _ (by simp) (by simp) (by simp) cs s
@[simp] theorem cryptLoop_err (p : Profile) (d : Direction) (cs : List ByteString) :
    (eachChunk (cryptChunk p d) cs s).err = s.err :=
  eachChunk_keeps State.err _ (by simp) (by simp) (by simp) cs s
@[simp] theorem cryptLoop_cause (p : Profile) (d : Direction) (cs : List ByteString) :
    (eachChunk (cryptChunk p d) cs s).cause = s.cause :=
  eachChunk_keeps State.cause _ (by simp) (by simp) (by simp) cs s
@[simp] theorem cryptLoop_valid (p : Profile) (d : Direction) (cs : List ByteString) :
    (eachChunk (cryptChunk p d) cs s).valid = s.valid :=
  eachChunk_keeps State.valid _ (by simp) (by simp) (by simp) cs s
@[simp] theorem cryptLoop_acc (p : Profile) (d : Direction) (cs : List ByteString) :
    (eachChunk (cryptChunk p d) cs s).acc = s.acc :=
  eachChunk_keeps State.acc _ (by simp) (by simp) (by simp) cs s
@[simp] theorem cryptLoop_rnd (p : Profile) (d : Direction) (cs : List ByteString) :
    (eachChunk (cryptChunk p d) cs s).rnd = s.rnd :=
  eachChunk_keeps State.rnd _ (by simp) (by simp) (by simp) cs s
@[simp] theorem cryptLoop_stp (p : Profile) (d : Direction) (cs : List ByteString) :
    (eachChunk (cryptChunk p d) cs s).stp = s.stp :=
  eachChunk_keeps State.stp _ (by simp) (by simp) (by simp) cs s
@[simp] theorem cryptLoop_busy (p : Profile) (d : Direction) (cs : List ByteString) :
    (eachChunk (cryptChunk p d) cs s).busy = s.busy :=
  eachChunk_keeps State.busy _ (by simp) (by simp) (by simp) cs s
@[simp] theorem cryptLoop_permuting (p : Profile) (d : Direction) (cs : List ByteString) :
    (eachChunk (cryptChunk p d) cs s).permuting = s.permuting :=
  eachChunk_keeps State.permuting _ (by simp) (by simp) (by simp) cs s
@[simp] theorem cryptLoop_cmdIn (p : Profile) (d : Direction) (cs : List ByteString) :
    (eachChunk (cryptChunk p d) cs s).cmdIn = s.cmdIn :=
  eachChunk_keeps State.cmdIn _ (by simp) (by simp) (by simp) cs s
@[simp] theorem cryptLoop_resets (p : Profile) (d : Direction) (cs : List ByteString) :
    (eachChunk (cryptChunk p d) cs s).resets = s.resets :=
  eachChunk_keeps State.resets _ (by simp) (by simp) (by simp) cs s

@[simp] theorem accumulate_lanes (t : ByteString) : (accumulate t s).lanes = s.lanes := rfl
@[simp] theorem accumulate_phase (t : ByteString) : (accumulate t s).phase = s.phase := rfl
@[simp] theorem accumulate_mode (t : ByteString) : (accumulate t s).mode = s.mode := rfl
@[simp] theorem accumulate_seq (t : ByteString) : (accumulate t s).seq = s.seq := rfl
@[simp] theorem accumulate_err (t : ByteString) : (accumulate t s).err = s.err := rfl
@[simp] theorem accumulate_cause (t : ByteString) : (accumulate t s).cause = s.cause := rfl
@[simp] theorem accumulate_valid (t : ByteString) : (accumulate t s).valid = s.valid := rfl
@[simp] theorem accumulate_chk (t : ByteString) : (accumulate t s).chk = s.chk := rfl
@[simp] theorem accumulate_rnd (t : ByteString) : (accumulate t s).rnd = s.rnd := rfl
@[simp] theorem accumulate_stp (t : ByteString) : (accumulate t s).stp = s.stp := rfl
@[simp] theorem accumulate_staging (t : ByteString) : (accumulate t s).staging = s.staging := rfl
@[simp] theorem accumulate_busy (t : ByteString) : (accumulate t s).busy = s.busy := rfl
@[simp] theorem accumulate_permuting (t : ByteString) : (accumulate t s).permuting = s.permuting := rfl
@[simp] theorem accumulate_cmdIn (t : ByteString) : (accumulate t s).cmdIn = s.cmdIn := rfl
@[simp] theorem accumulate_respOut (t : ByteString) : (accumulate t s).respOut = s.respOut := rfl
@[simp] theorem accumulate_resets (t : ByteString) : (accumulate t s).resets = s.resets := rfl
@[simp] theorem accumulate_trace (t : ByteString) :
    (accumulate t s).trace = s.trace ++ (List.range tagLen).map .orAcc := rfl
@[simp] theorem accumulate_acc (t : ByteString) :
    (accumulate t s).acc = (List.range tagLen).foldl (orAccStep s.lanes t) s.acc := rfl
@[simp] theorem finishVerify_lanes : (finishVerify s).lanes = s.lanes := rfl
@[simp] theorem finishVerify_phase : (finishVerify s).phase = s.phase := rfl
@[simp] theorem finishVerify_mode : (finishVerify s).mode = s.mode := rfl
@[simp] theorem finishVerify_err : (finishVerify s).err = s.err := rfl
@[simp] theorem finishVerify_cause : (finishVerify s).cause = s.cause := rfl
@[simp] theorem finishVerify_acc : (finishVerify s).acc = s.acc := rfl
@[simp] theorem finishVerify_chk : (finishVerify s).chk = s.chk := rfl
@[simp] theorem finishVerify_rnd : (finishVerify s).rnd = s.rnd := rfl
@[simp] theorem finishVerify_stp : (finishVerify s).stp = s.stp := rfl
@[simp] theorem finishVerify_staging : (finishVerify s).staging = s.staging := rfl
@[simp] theorem finishVerify_busy : (finishVerify s).busy = s.busy := rfl
@[simp] theorem finishVerify_permuting : (finishVerify s).permuting = s.permuting := rfl
@[simp] theorem finishVerify_cmdIn : (finishVerify s).cmdIn = s.cmdIn := rfl
@[simp] theorem finishVerify_trace : (finishVerify s).trace = s.trace := rfl
@[simp] theorem finishVerify_resets : (finishVerify s).resets = s.resets := rfl
@[simp] theorem finishVerify_seq : (finishVerify s).seq = .done := rfl
@[simp] theorem finishVerify_valid : (finishVerify s).valid = validOf s.acc := rfl
@[simp] theorem finishVerify_respOut : (finishVerify s).respOut = s.respOut ++ [validByte (validOf s.acc)] := rfl

end Sys2Proof.Machine
end

