-- ==== Sys2Proof/Laws/Commands.lean ====
section
/-! SUPPORT. What each command does, said once: when its prologue accepts it, what an accepted command
leaves in every field but the lanes, and that no command looks at the streams' older bytes. -/

namespace Sys2Proof.Machine

/-! ### The prologue (42_duplex_commands R159, 10_state R32) -/

theorem prologueFault_of_err {k : CmdKind} {s : State} (h : s.err = true) :
    prologueFault k s = some .sequenceError := by simp [prologueFault, h]

/-- The prologue accepts a command exactly when ERR = 0 and the command is listed for SEQ and exists in the mode. -/
theorem prologueFault_eq_none_iff (k : CmdKind) (s : State) :
    prologueFault k s = none ↔ s.err = false ∧ wrongMode s.seq k = false ∧ permitted s.seq k = true := by
  unfold prologueFault
  cases s.err <;> cases wrongMode s.seq k <;> cases permitted s.seq k <;> simp

theorem prologue_absorb (s : State) : prologueFault .absorb s = none ↔
    s.err = false ∧ (s.seq = .hInit ∨ s.seq = .hAbs ∨ s.seq = .kInit ∨ s.seq = .kAd) := by
  rw [prologueFault_eq_none_iff]
  cases s.seq <;> simp [wrongMode, permitted]

theorem prologue_squeeze (s : State) : prologueFault .squeeze s = none ↔ s.err = false ∧ s.seq = .hAbs := by
  rw [prologueFault_eq_none_iff]
  cases s.seq <;> simp [wrongMode, permitted]

theorem prologue_encrypt (s : State) : prologueFault .encrypt s = none ↔ s.err = false ∧ s.seq = .kAd := by
  rw [prologueFault_eq_none_iff]
  cases s.seq <;> simp [wrongMode, permitted]

theorem prologue_decrypt (s : State) : prologueFault .decrypt s = none ↔ s.err = false ∧ s.seq = .kAd := by
  rw [prologueFault_eq_none_iff]
  cases s.seq <;> simp [wrongMode, permitted]

theorem prologue_squeezeTag (s : State) : prologueFault .squeezeTag s = none ↔ s.err = false ∧ s.seq = .kCrypt := by
  rw [prologueFault_eq_none_iff]
  cases s.seq <;> simp [wrongMode, permitted]

theorem prologue_verifyTag (s : State) : prologueFault .verifyTag s = none ↔ s.err = false ∧ s.seq = .kCrypt := by
  rw [prologueFault_eq_none_iff]
  cases s.seq <;> simp [wrongMode, permitted]

/-! ### Rates -/

@[simp] theorem rate_hardware_absorb (m : Mode) : rate hardware m .absorb = 16 := by cases m <;> rfl
@[simp] theorem rate_hardware_encrypt : rate hardware .keyed .encrypt = 16 := rfl
@[simp] theorem rate_hardware_decrypt : rate hardware .keyed .decrypt = 16 := rfl
@[simp] theorem rate_hash_squeeze (p : Profile) : rate p .hash .squeeze = 16 := rfl
theorem rate_absorb_pos {p : Profile} (hp : 1 ≤ p.rKabs) (m : Mode) : 0 < rate p m .absorb := by
  cases m
  · exact (by decide : 0 < 16)
  · exact hp

/-! ### The fields after an accepted command -/

variable (s : State)

/-! `initHash` -/

@[simp] theorem initHash_mode : (complete initHashBody s).mode = .hash := by
  simp [complete, initHashBody]
@[simp] theorem initHash_seq : (complete initHashBody s).seq = .hInit := by
  simp [complete, initHashBody]
@[simp] theorem initHash_err : (complete initHashBody s).err = false := by
  simp [complete, initHashBody]
@[simp] theorem initHash_cause : (complete initHashBody s).cause = 0 := by
  simp [complete, initHashBody]
@[simp] theorem initHash_valid : (complete initHashBody s).valid = false := by
  simp [complete, initHashBody]
@[simp] theorem initHash_acc : (complete initHashBody s).acc = 0 := by
  simp [complete, initHashBody]
@[simp] theorem initHash_chk : (complete initHashBody s).chk = 0 := by
  simp [complete, initHashBody]
@[simp] theorem initHash_rnd : (complete initHashBody s).rnd = 0 := by
  simp [complete, initHashBody]
@[simp] theorem initHash_stp : (complete initHashBody s).stp = 0 := by
  simp [complete, initHashBody]
@[simp] theorem initHash_staging : (complete initHashBody s).staging = [] := by
  simp [complete, initHashBody]
@[simp] theorem initHash_busy : (complete initHashBody s).busy = false := by
  simp [complete, initHashBody]
@[simp] theorem initHash_permuting : (complete initHashBody s).permuting = false := by
  simp [complete, initHashBody]
@[simp] theorem initHash_cmdIn : (complete initHashBody s).cmdIn = s.cmdIn := by
  simp [complete, initHashBody]
@[simp] theorem initHash_resets : (complete initHashBody s).resets = s.resets := by
  simp [complete, initHashBody]
@[simp] theorem initHash_lanes : (complete initHashBody s).lanes = Lanes.zero := by
  simp [complete, initHashBody]
@[simp] theorem initHash_phase : (complete initHashBody s).phase = .up := by
  simp [complete, initHashBody]
@[simp] theorem initHash_trace : (complete initHashBody s).trace = s.trace := by
  simp [complete, initHashBody]
@[simp] theorem initHash_respOut : (complete initHashBody s).respOut = s.respOut ++ [statusOk] := by
  simp [complete, initHashBody]

/-! `initKeyed` -/

@[simp] theorem initKeyed_mode (key nonce : ByteString) : (complete (initKeyedBody key nonce) s).mode = .keyed := by
  simp [complete, initKeyedBody]
@[simp] theorem initKeyed_seq (key nonce : ByteString) : (complete (initKeyedBody key nonce) s).seq = .kInit := by
  simp [complete, initKeyedBody]
@[simp] theorem initKeyed_err (key nonce : ByteString) : (complete (initKeyedBody key nonce) s).err = false := by
  simp [complete, initKeyedBody]
@[simp] theorem initKeyed_cause (key nonce : ByteString) : (complete (initKeyedBody key nonce) s).cause = 0 := by
  simp [complete, initKeyedBody]
@[simp] theorem initKeyed_valid (key nonce : ByteString) : (complete (initKeyedBody key nonce) s).valid = false := by
  simp [complete, initKeyedBody]
@[simp] theorem initKeyed_acc (key nonce : ByteString) : (complete (initKeyedBody key nonce) s).acc = 0 := by
  simp [complete, initKeyedBody]
@[simp] theorem initKeyed_chk (key nonce : ByteString) : (complete (initKeyedBody key nonce) s).chk = 0 := by
  simp [complete, initKeyedBody]
@[simp] theorem initKeyed_rnd (key nonce : ByteString) : (complete (initKeyedBody key nonce) s).rnd = 0 := by
  simp [complete, initKeyedBody]
@[simp] theorem initKeyed_stp (key nonce : ByteString) : (complete (initKeyedBody key nonce) s).stp = 0 := by
  simp [complete, initKeyedBody]
@[simp] theorem initKeyed_staging (key nonce : ByteString) : (complete (initKeyedBody key nonce) s).staging = [] := by
  simp [complete, initKeyedBody]
@[simp] theorem initKeyed_busy (key nonce : ByteString) : (complete (initKeyedBody key nonce) s).busy = false := by
  simp [complete, initKeyedBody]
@[simp] theorem initKeyed_permuting (key nonce : ByteString) : (complete (initKeyedBody key nonce) s).permuting = false := by
  simp [complete, initKeyedBody]
@[simp] theorem initKeyed_cmdIn (key nonce : ByteString) : (complete (initKeyedBody key nonce) s).cmdIn = s.cmdIn := by
  simp [complete, initKeyedBody]
@[simp] theorem initKeyed_resets (key nonce : ByteString) : (complete (initKeyedBody key nonce) s).resets = s.resets := by
  simp [complete, initKeyedBody]
@[simp] theorem initKeyed_phase (key nonce : ByteString) : (complete (initKeyedBody key nonce) s).phase = .down := by
  simp [complete, initKeyedBody]
@[simp] theorem initKeyed_respOut (key nonce : ByteString) : (complete (initKeyedBody key nonce) s).respOut = s.respOut ++ [statusOk] := by
  simp [complete, initKeyedBody]

/-! `absorb` -/

@[simp] theorem absorb_mode (p : Profile) (x : ByteString) : (complete (absorbBody p x) s).mode = s.mode := by
  simp [complete, absorbBody]
theorem absorb_seq (p : Profile) (x : ByteString) : (complete (absorbBody p x) s).seq =
    match s.mode with | .hash => .hAbs | .keyed => .kAd := rfl
@[simp] theorem absorb_err (p : Profile) (x : ByteString) : (complete (absorbBody p x) s).err = s.err := by
  simp [complete, absorbBody]
@[simp] theorem absorb_cause (p : Profile) (x : ByteString) : (complete (absorbBody p x) s).cause = s.cause := by
  simp [complete, absorbBody]
@[simp] theorem absorb_valid (p : Profile) (x : ByteString) : (complete (absorbBody p x) s).valid = s.valid := by
  simp [complete, absorbBody]
@[simp] theorem absorb_acc (p : Profile) (x : ByteString) : (complete (absorbBody p x) s).acc = s.acc := by
  simp [complete, absorbBody]
@[simp] theorem absorb_chk (p : Profile) (x : ByteString) : (complete (absorbBody p x) s).chk = 0 := by
  simp [complete, absorbBody]
@[simp] theorem absorb_rnd (p : Profile) (x : ByteString) : (complete (absorbBody p x) s).rnd = 0 := by
  simp [complete, absorbBody]
@[simp] theorem absorb_stp (p : Profile) (x : ByteString) : (complete (absorbBody p x) s).stp = 0 := by
  simp [complete, absorbBody]
@[simp] theorem absorb_staging (p : Profile) (x : ByteString) : (complete (absorbBody p x) s).staging = [] := by
  simp [complete, absorbBody]
@[simp] theorem absorb_busy (p : Profile) (x : ByteString) : (complete (absorbBody p x) s).busy = false := by
  simp [complete, absorbBody]
@[simp] theorem absorb_permuting (p : Profile) (x : ByteString) : (complete (absorbBody p x) s).permuting = false := by
  simp [complete, absorbBody]
@[simp] theorem absorb_cmdIn (p : Profile) (x : ByteString) : (complete (absorbBody p x) s).cmdIn = s.cmdIn := by
  simp [complete, absorbBody]
@[simp] theorem absorb_resets (p : Profile) (x : ByteString) : (complete (absorbBody p x) s).resets = s.resets := by
  simp [complete, absorbBody]
@[simp] theorem absorb_respOut (p : Profile) (x : ByteString) : (complete (absorbBody p x) s).respOut = s.respOut ++ [statusOk] := by
  simp [complete, absorbBody]

/-! `squeeze` -/

@[simp] theorem squeeze_mode (p : Profile) (l : Nat) : (complete (squeezeBody p l) s).mode = s.mode := by
  simp [complete, squeezeBody]
@[simp] theorem squeeze_seq (p : Profile) (l : Nat) : (complete (squeezeBody p l) s).seq = .done := by
  simp [complete, squeezeBody]
@[simp] theorem squeeze_err (p : Profile) (l : Nat) : (complete (squeezeBody p l) s).err = s.err := by
  simp [complete, squeezeBody]
@[simp] theorem squeeze_cause (p : Profile) (l : Nat) : (complete (squeezeBody p l) s).cause = s.cause := by
  simp [complete, squeezeBody]
@[simp] theorem squeeze_valid (p : Profile) (l : Nat) : (complete (squeezeBody p l) s).valid = s.valid := by
  simp [complete, squeezeBody]
@[simp] theorem squeeze_acc (p : Profile) (l : Nat) : (complete (squeezeBody p l) s).acc = s.acc := by
  simp [complete, squeezeBody]
@[simp] theorem squeeze_chk (p : Profile) (l : Nat) : (complete (squeezeBody p l) s).chk = 0 := by
  simp [complete, squeezeBody]
@[simp] theorem squeeze_rnd (p : Profile) (l : Nat) : (complete (squeezeBody p l) s).rnd = 0 := by
  simp [complete, squeezeBody]
@[simp] theorem squeeze_stp (p : Profile) (l : Nat) : (complete (squeezeBody p l) s).stp = 0 := by
  simp [complete, squeezeBody]
@[simp] theorem squeeze_staging (p : Profile) (l : Nat) : (complete (squeezeBody p l) s).staging = [] := by
  simp [complete, squeezeBody]
@[simp] theorem squeeze_busy (p : Profile) (l : Nat) : (complete (squeezeBody p l) s).busy = false := by
  simp [complete, squeezeBody]
@[simp] theorem squeeze_permuting (p : Profile) (l : Nat) : (complete (squeezeBody p l) s).permuting = false := by
  simp [complete, squeezeBody]
@[simp] theorem squeeze_cmdIn (p : Profile) (l : Nat) : (complete (squeezeBody p l) s).cmdIn = s.cmdIn := by
  simp [complete, squeezeBody]
@[simp] theorem squeeze_resets (p : Profile) (l : Nat) : (complete (squeezeBody p l) s).resets = s.resets := by
  simp [complete, squeezeBody]

/-! `encrypt` -/

@[simp] theorem encrypt_mode (p : Profile) (x : ByteString) : (complete (encryptBody p x) s).mode = s.mode := by
  simp [complete, encryptBody]
@[simp] theorem encrypt_seq (p : Profile) (x : ByteString) : (complete (encryptBody p x) s).seq = .kCrypt := by
  simp [complete, encryptBody]
@[simp] theorem encrypt_err (p : Profile) (x : ByteString) : (complete (encryptBody p x) s).err = s.err := by
  simp [complete, encryptBody]
@[simp] theorem encrypt_cause (p : Profile) (x : ByteString) : (complete (encryptBody p x) s).cause = s.cause := by
  simp [complete, encryptBody]
@[simp] theorem encrypt_valid (p : Profile) (x : ByteString) : (complete (encryptBody p x) s).valid = s.valid := by
  simp [complete, encryptBody]
@[simp] theorem encrypt_acc (p : Profile) (x : ByteString) : (complete (encryptBody p x) s).acc = s.acc := by
  simp [complete, encryptBody]
@[simp] theorem encrypt_chk (p : Profile) (x : ByteString) : (complete (encryptBody p x) s).chk = 0 := by
  simp [complete, encryptBody]
@[simp] theorem encrypt_rnd (p : Profile) (x : ByteString) : (complete (encryptBody p x) s).rnd = 0 := by
  simp [complete, encryptBody]
@[simp] theorem encrypt_stp (p : Profile) (x : ByteString) : (complete (encryptBody p x) s).stp = 0 := by
  simp [complete, encryptBody]
@[simp] theorem encrypt_staging (p : Profile) (x : ByteString) : (complete (encryptBody p x) s).staging = [] := by
  simp [complete, encryptBody]
@[simp] theorem encrypt_busy (p : Profile) (x : ByteString) : (complete (encryptBody p x) s).busy = false := by
  simp [complete, encryptBody]
@[simp] theorem encrypt_permuting (p : Profile) (x : ByteString) : (complete (encryptBody p x) s).permuting = false := by
  simp [complete, encryptBody]
@[simp] theorem encrypt_cmdIn (p : Profile) (x : ByteString) : (complete (encryptBody p x) s).cmdIn = s.cmdIn := by
  simp [complete, encryptBody]
@[simp] theorem encrypt_resets (p : Profile) (x : ByteString) : (complete (encryptBody p x) s).resets = s.resets := by
  simp [complete, encryptBody]

/-! `decrypt` -/

@[simp] theorem decrypt_mode (p : Profile) (x : ByteString) : (complete (decryptBody p x) s).mode = s.mode := by
  simp [complete, decryptBody]
@[simp] theorem decrypt_seq (p : Profile) (x : ByteString) : (complete (decryptBody p x) s).seq = .kCrypt := by
  simp [complete, decryptBody]
@[simp] theorem decrypt_err (p : Profile) (x : ByteString) : (complete (decryptBody p x) s).err = s.err := by
  simp [complete, decryptBody]
@[simp] theorem decrypt_cause (p : Profile) (x : ByteString) : (complete (decryptBody p x) s).cause = s.cause := by
  simp [complete, decryptBody]
@[simp] theorem decrypt_valid (p : Profile) (x : ByteString) : (complete (decryptBody p x) s).valid = s.valid := by
  simp [complete, decryptBody]
@[simp] theorem decrypt_acc (p : Profile) (x : ByteString) : (complete (decryptBody p x) s).acc = s.acc := by
  simp [complete, decryptBody]
@[simp] theorem decrypt_chk (p : Profile) (x : ByteString) : (complete (decryptBody p x) s).chk = 0 := by
  simp [complete, decryptBody]
@[simp] theorem decrypt_rnd (p : Profile) (x : ByteString) : (complete (decryptBody p x) s).rnd = 0 := by
  simp [complete, decryptBody]
@[simp] theorem decrypt_stp (p : Profile) (x : ByteString) : (complete (decryptBody p x) s).stp = 0 := by
  simp [complete, decryptBody]
@[simp] theorem decrypt_staging (p : Profile) (x : ByteString) : (complete (decryptBody p x) s).staging = [] := by
  simp [complete, decryptBody]
@[simp] theorem decrypt_busy (p : Profile) (x : ByteString) : (complete (decryptBody p x) s).busy = false := by
  simp [complete, decryptBody]
@[simp] theorem decrypt_permuting (p : Profile) (x : ByteString) : (complete (decryptBody p x) s).permuting = false := by
  simp [complete, decryptBody]
@[simp] theorem decrypt_cmdIn (p : Profile) (x : ByteString) : (complete (decryptBody p x) s).cmdIn = s.cmdIn := by
  simp [complete, decryptBody]
@[simp] theorem decrypt_resets (p : Profile) (x : ByteString) : (complete (decryptBody p x) s).resets = s.resets := by
  simp [complete, decryptBody]

/-! `squeezeTag` -/

@[simp] theorem squeezeTag_mode : (complete squeezeTagBody s).mode = s.mode := by
  simp [complete, squeezeTagBody]
@[simp] theorem squeezeTag_seq : (complete squeezeTagBody s).seq = .done := by
  simp [complete, squeezeTagBody]
@[simp] theorem squeezeTag_err : (complete squeezeTagBody s).err = s.err := by
  simp [complete, squeezeTagBody]
@[simp] theorem squeezeTag_cause : (complete squeezeTagBody s).cause = s.cause := by
  simp [complete, squeezeTagBody]
@[simp] theorem squeezeTag_valid : (complete squeezeTagBody s).valid = s.valid := by
  simp [complete, squeezeTagBody]
@[simp] theorem squeezeTag_acc : (complete squeezeTagBody s).acc = s.acc := by
  simp [complete, squeezeTagBody]
@[simp] theorem squeezeTag_chk : (complete squeezeTagBody s).chk = 0 := by
  simp [complete, squeezeTagBody]
@[simp] theorem squeezeTag_rnd : (complete squeezeTagBody s).rnd = 0 := by
  simp [complete, squeezeTagBody]
@[simp] theorem squeezeTag_stp : (complete squeezeTagBody s).stp = 0 := by
  simp [complete, squeezeTagBody]
@[simp] theorem squeezeTag_staging : (complete squeezeTagBody s).staging = [] := by
  simp [complete, squeezeTagBody]
@[simp] theorem squeezeTag_busy : (complete squeezeTagBody s).busy = false := by
  simp [complete, squeezeTagBody]
@[simp] theorem squeezeTag_permuting : (complete squeezeTagBody s).permuting = false := by
  simp [complete, squeezeTagBody]
@[simp] theorem squeezeTag_cmdIn : (complete squeezeTagBody s).cmdIn = s.cmdIn := by
  simp [complete, squeezeTagBody]
@[simp] theorem squeezeTag_resets : (complete squeezeTagBody s).resets = s.resets := by
  simp [complete, squeezeTagBody]
@[simp] theorem squeezeTag_lanes : (complete squeezeTagBody s).lanes = permute (upInject s.mode cuSqueeze s.lanes) := by
  simp [complete, squeezeTagBody]
@[simp] theorem squeezeTag_phase : (complete squeezeTagBody s).phase = .up := by
  simp [complete, squeezeTagBody]
@[simp] theorem squeezeTag_trace : (complete squeezeTagBody s).trace = s.trace ++ [.up cuSqueeze, .lead tagLen] := by
  simp [complete, squeezeTagBody]

/-! `verifyTag` -/

@[simp] theorem verifyTag_mode (t : ByteString) : (complete (verifyTagBody t) s).mode = s.mode := by
  simp [complete, verifyTagBody]
@[simp] theorem verifyTag_seq (t : ByteString) : (complete (verifyTagBody t) s).seq = .done := by
  simp [complete, verifyTagBody]
@[simp] theorem verifyTag_err (t : ByteString) : (complete (verifyTagBody t) s).err = s.err := by
  simp [complete, verifyTagBody]
@[simp] theorem verifyTag_cause (t : ByteString) : (complete (verifyTagBody t) s).cause = s.cause := by
  simp [complete, verifyTagBody]
@[simp] theorem verifyTag_chk (t : ByteString) : (complete (verifyTagBody t) s).chk = 0 := by
  simp [complete, verifyTagBody]
@[simp] theorem verifyTag_rnd (t : ByteString) : (complete (verifyTagBody t) s).rnd = 0 := by
  simp [complete, verifyTagBody]
@[simp] theorem verifyTag_stp (t : ByteString) : (complete (verifyTagBody t) s).stp = 0 := by
  simp [complete, verifyTagBody]
@[simp] theorem verifyTag_staging (t : ByteString) : (complete (verifyTagBody t) s).staging = [] := by
  simp [complete, verifyTagBody]
@[simp] theorem verifyTag_busy (t : ByteString) : (complete (verifyTagBody t) s).busy = false := by
  simp [complete, verifyTagBody]
@[simp] theorem verifyTag_permuting (t : ByteString) : (complete (verifyTagBody t) s).permuting = false := by
  simp [complete, verifyTagBody]
@[simp] theorem verifyTag_cmdIn (t : ByteString) : (complete (verifyTagBody t) s).cmdIn = s.cmdIn := by
  simp [complete, verifyTagBody]
@[simp] theorem verifyTag_resets (t : ByteString) : (complete (verifyTagBody t) s).resets = s.resets := by
  simp [complete, verifyTagBody]
@[simp] theorem verifyTag_lanes (t : ByteString) : (complete (verifyTagBody t) s).lanes = permute (upInject s.mode cuSqueeze s.lanes) := by
  simp [complete, verifyTagBody]
@[simp] theorem verifyTag_phase (t : ByteString) : (complete (verifyTagBody t) s).phase = .up := by
  simp [complete, verifyTagBody]
@[simp] theorem verifyTag_trace (t : ByteString) : (complete (verifyTagBody t) s).trace = s.trace ++ .up cuSqueeze :: (List.range tagLen).map .orAcc := by
  simp [complete, verifyTagBody]


/-! ### The phase after the loops -/

theorem absorb_phase {p : Profile} {x : ByteString} (h : 0 < rate p s.mode .absorb) :
    (complete (absorbBody p x) s).phase = .down := by
  simp only [complete, absorbBody, State.endCommand_phase, State.putSeq_phase, State.beginCommand_mode]
  exact eachChunk_phase (by simp) (chunks_ne_nil x h) _

theorem encrypt_phase {p : Profile} {x : ByteString} (h : 0 < p.rKcrypt) :
    (complete (encryptBody p x) s).phase = .down := by
  simp only [complete, encryptBody, State.endCommand_phase, State.putSeq_phase]
  exact eachChunk_phase (by simp) (chunks_ne_nil x h) _

theorem decrypt_phase {p : Profile} {x : ByteString} (h : 0 < p.rKcrypt) :
    (complete (decryptBody p x) s).phase = .down := by
  simp only [complete, decryptBody, State.endCommand_phase, State.putSeq_phase]
  exact eachChunk_phase (by simp) (chunks_ne_nil x h) _

theorem squeezeBlocks_phase {k n : Nat} (h : s.phase = .up) : (squeezeBlocks k n s).phase = .up := by
  induction k generalizing n s with
  | zero => exact h
  | succ k ih => exact ih _ (by simp)

theorem squeeze_phase (p : Profile) (l : Nat) : (complete (squeezeBody p l) s).phase = .up := by
  simp only [complete, squeezeBody, State.endCommand_phase, State.putSeq_phase]
  exact squeezeBlocks_phase _ (by simp)

/-! ### No command looks at older bytes of the streams -/

/-- `s` with other bytes before its responses, another command stream, an older record in front, and
another reset count. -/
def State.rebase (pre cmd : ByteString) (old : List Prim) (k : Nat) (s : State) : State :=
  { s with respOut := pre ++ s.respOut, cmdIn := cmd, trace := old ++ s.trace, resets := k }

section rebase
variable (pre cmd : ByteString) (old : List Prim) (k : Nat)

@[simp] theorem State.rebase_lanes : (s.rebase pre cmd old k).lanes = s.lanes := rfl
@[simp] theorem State.rebase_phase : (s.rebase pre cmd old k).phase = s.phase := rfl
@[simp] theorem State.rebase_mode : (s.rebase pre cmd old k).mode = s.mode := rfl
@[simp] theorem State.rebase_seq : (s.rebase pre cmd old k).seq = s.seq := rfl
@[simp] theorem State.rebase_err : (s.rebase pre cmd old k).err = s.err := rfl
@[simp] theorem State.rebase_cause : (s.rebase pre cmd old k).cause = s.cause := rfl
@[simp] theorem State.rebase_valid : (s.rebase pre cmd old k).valid = s.valid := rfl
@[simp] theorem State.rebase_acc : (s.rebase pre cmd old k).acc = s.acc := rfl
@[simp] theorem State.rebase_chk : (s.rebase pre cmd old k).chk = s.chk := rfl
@[simp] theorem State.rebase_rnd : (s.rebase pre cmd old k).rnd = s.rnd := rfl
@[simp] theorem State.rebase_stp : (s.rebase pre cmd old k).stp = s.stp := rfl
@[simp] theorem State.rebase_staging : (s.rebase pre cmd old k).staging = s.staging := rfl
@[simp] theorem State.rebase_busy : (s.rebase pre cmd old k).busy = s.busy := rfl
@[simp] theorem State.rebase_permuting : (s.rebase pre cmd old k).permuting = s.permuting := rfl
@[simp] theorem State.rebase_respOut : (s.rebase pre cmd old k).respOut = pre ++ s.respOut := rfl
@[simp] theorem State.rebase_cmdIn : (s.rebase pre cmd old k).cmdIn = cmd := rfl
@[simp] theorem State.rebase_trace : (s.rebase pre cmd old k).trace = old ++ s.trace := rfl
@[simp] theorem State.rebase_resets : (s.rebase pre cmd old k).resets = k := rfl

theorem emit_rebase (v : ByteString) : (s.rebase pre cmd old k).emit v = (s.emit v).rebase pre cmd old k := by
  simp [State.emit, State.rebase]
theorem note_rebase (e : Prim) : (s.rebase pre cmd old k).note e = (s.note e).rebase pre cmd old k := by
  simp [State.note, State.rebase]
theorem begin_rebase : (s.rebase pre cmd old k).beginCommand = s.beginCommand.rebase pre cmd old k := by
  simp [State.beginCommand, State.sequencer0, State.emit, State.rebase]
theorem up_rebase (cu : Byte) : up cu (s.rebase pre cmd old k) = (up cu s).rebase pre cmd old k := by
  simp [up, State.putLanes, State.putPhase, State.note, State.rebase]
theorem down_rebase (x : ByteString) (cd : Byte) :
    down x cd (s.rebase pre cmd old k) = (down x cd s).rebase pre cmd old k := by
  simp [down, State.putLanes, State.putPhase, State.note, State.rebase]
theorem downOvr_rebase (x : ByteString) (cd : Byte) :
    downOvr x cd (s.rebase pre cmd old k) = (downOvr x cd s).rebase pre cmd old k := by
  simp [downOvr, State.putLanes, State.putPhase, State.note, State.rebase]
theorem ensureUp_rebase : ensureUp (s.rebase pre cmd old k) = (ensureUp s).rebase pre cmd old k := by
  unfold ensureUp
  cases h : s.phase <;> simp [h, up_rebase]
theorem lead_rebase (n : Nat) : lead n (s.rebase pre cmd old k) = lead n s := rfl
theorem emitLead_rebase (n : Nat) :
    emitLead n (s.rebase pre cmd old k) = (emitLead n s).rebase pre cmd old k := by
  simp [emitLead, lead_rebase, emit_rebase, note_rebase]
theorem feedBack_rebase (p : Profile) (x : ByteString) :
    feedBack p x (s.rebase pre cmd old k) = (feedBack p x s).rebase pre cmd old k := by
  unfold feedBack
  split <;> simp [down_rebase, downOvr_rebase]
theorem absorbChunk_rebase (p : Profile) :
    absorbChunk p (s.rebase pre cmd old k) = (absorbChunk p s).rebase pre cmd old k := by
  simp [absorbChunk, ensureUp_rebase, down_rebase]
theorem cryptChunk_rebase (p : Profile) (d : Direction) :
    cryptChunk p d (s.rebase pre cmd old k) = (cryptChunk p d s).rebase pre cmd old k := by
  simp [cryptChunk, up_rebase, lead_rebase, note_rebase, emit_rebase, feedBack_rebase]
theorem eachChunk_rebase {body : State → State}
    (h : ∀ t, body (t.rebase pre cmd old k) = (body t).rebase pre cmd old k) (cs : List ByteString) :
    eachChunk body cs (s.rebase pre cmd old k) = (eachChunk body cs s).rebase pre cmd old k := by
  induction cs generalizing s with
  | nil => rfl
  | cons c cs ih =>
    have : (body ((s.rebase pre cmd old k).load c)).nextChunk = ((body (s.load c)).nextChunk).rebase pre cmd old k := by
      rw [show (s.rebase pre cmd old k).load c = (s.load c).rebase pre cmd old k from rfl, h]
      rfl
    rw [eachChunk, this, ih, eachChunk]
theorem squeezeBlocks_rebase (m n : Nat) :
    squeezeBlocks m n (s.rebase pre cmd old k) = (squeezeBlocks m n s).rebase pre cmd old k := by
  induction m generalizing n s with
  | zero => rfl
  | succ m ih => rw [squeezeBlocks, down_rebase, up_rebase, emitLead_rebase, ih, squeezeBlocks]
theorem accumulate_rebase (t : ByteString) :
    accumulate t (s.rebase pre cmd old k) = (accumulate t s).rebase pre cmd old k := by
  simp [accumulate, State.rebase]
theorem finishVerify_rebase : finishVerify (s.rebase pre cmd old k) = (finishVerify s).rebase pre cmd old k := by
  simp [finishVerify, State.putValid, State.putSeq, State.emit, State.rebase]
theorem raise_rebase (f : Raised) : raise f (s.rebase pre cmd old k) = (raise f s).rebase pre cmd old k := by
  rw [raise_spec, raise_spec]
  simp only [State.rebase, List.append_assoc]
  rfl
theorem complete_rebase {body : State → State}
    (h : ∀ t, body (t.rebase pre cmd old k) = (body t).rebase pre cmd old k) :
    complete body (s.rebase pre cmd old k) = (complete body s).rebase pre cmd old k := by
  rw [complete, begin_rebase, h]
  rfl
theorem prologueFault_rebase (c : CmdKind) : prologueFault c (s.rebase pre cmd old k) = prologueFault c s := rfl
theorem guarded_rebase {c : CmdKind} {body : State → State}
    (h : ∀ t, body (t.rebase pre cmd old k) = (body t).rebase pre cmd old k) :
    guarded c body (s.rebase pre cmd old k) = (guarded c body s).rebase pre cmd old k := by
  unfold guarded
  rw [prologueFault_rebase]
  split
  · exact raise_rebase _ _ _ _ _ _
  · exact h s

theorem initHashCmd_rebase : initHashCmd (s.rebase pre cmd old k) = (initHashCmd s).rebase pre cmd old k :=
  complete_rebase _ _ _ _ _ (fun _ => rfl)
theorem initKeyedCmd_rebase (key nonce : ByteString) :
    initKeyedCmd key nonce (s.rebase pre cmd old k) = (initKeyedCmd key nonce s).rebase pre cmd old k := by
  unfold initKeyedCmd
  split
  · apply complete_rebase
    intro t
    unfold initKeyedBody
    rw [show (t.rebase pre cmd old k).newInstance .keyed = (t.newInstance .keyed).rebase pre cmd old k from rfl, down_rebase]
    rfl
  · exact raise_rebase _ _ _ _ _ _
theorem absorbCmd_rebase (p : Profile) (x : ByteString) :
    absorbCmd p x (s.rebase pre cmd old k) = (absorbCmd p x s).rebase pre cmd old k := by
  apply guarded_rebase; intro t; apply complete_rebase; intro u
  simp only [absorbBody, State.rebase_mode]
  rw [eachChunk_rebase _ _ _ _ _ (fun t => absorbChunk_rebase t pre cmd old k p)]
  rfl
theorem squeezeCmd_rebase (p : Profile) (l : Nat) :
    squeezeCmd p l (s.rebase pre cmd old k) = (squeezeCmd p l s).rebase pre cmd old k := by
  apply guarded_rebase; intro t; apply complete_rebase; intro u
  simp only [squeezeBody]
  rw [up_rebase, emitLead_rebase, squeezeBlocks_rebase]
  rfl
theorem encryptCmd_rebase (p : Profile) (x : ByteString) :
    encryptCmd p x (s.rebase pre cmd old k) = (encryptCmd p x s).rebase pre cmd old k := by
  apply guarded_rebase; intro t; apply complete_rebase; intro u
  simp only [encryptBody]
  rw [eachChunk_rebase _ _ _ _ _ (fun t => cryptChunk_rebase t pre cmd old k p .encrypt)]
  rfl
theorem decryptCmd_rebase (p : Profile) (x : ByteString) :
    decryptCmd p x (s.rebase pre cmd old k) = (decryptCmd p x s).rebase pre cmd old k := by
  apply guarded_rebase; intro t; apply complete_rebase; intro u
  simp only [decryptBody]
  rw [eachChunk_rebase _ _ _ _ _ (fun t => cryptChunk_rebase t pre cmd old k p .decrypt)]
  rfl
theorem squeezeTagCmd_rebase : squeezeTagCmd (s.rebase pre cmd old k) = (squeezeTagCmd s).rebase pre cmd old k := by
  apply guarded_rebase; intro t; apply complete_rebase; intro u
  simp only [squeezeTagBody]
  rw [up_rebase, emitLead_rebase]
  rfl
theorem verifyTagCmd_rebase (t : ByteString) :
    verifyTagCmd t (s.rebase pre cmd old k) = (verifyTagCmd t s).rebase pre cmd old k := by
  apply guarded_rebase; intro u
  split
  · apply complete_rebase; intro v
    simp only [verifyTagBody]
    rw [up_rebase, show ((up cuSqueeze v).rebase pre cmd old k).putAcc 0 = ((up cuSqueeze v).putAcc 0).rebase pre cmd old k from rfl,
      accumulate_rebase, finishVerify_rebase]
  · exact raise_rebase _ _ _ _ _ _

end rebase

/-! ### Every instruction's outcome -/

/-- A command answers a next state, in every state. -/
theorem exec_command_next {i : Instr} (h : i.isCommand = true) (s : State) : ∃ t, exec i s = .next t := by
  cases i <;> first | exact ⟨_, rfl⟩ | simp [Instr.isCommand, Instr.command?] at h

end Sys2Proof.Machine
end

