-- ==== Sys2Proof/Laws/Decode.lean ====
section
/-! SUPPORT. The laws of the header fields and of the decoder's verdicts (30_encoding R84 to R87, R93). -/

namespace Sys2Proof

@[simp] theorem length_leBytes (n v : Nat) : (leBytes n v).length = n := by
  induction n generalizing v with
  | zero => rfl
  | succ n ih => simp [leBytes, ih]

theorem leNat_append (x y : ByteString) : leNat (x ++ y) = leNat x + 256 ^ x.length * leNat y := by
  induction x with
  | nil => simp [leNat]
  | cons b bs ih =>
    simp only [List.cons_append, leNat, ih, List.length_cons, pow_succ]
    ring

theorem leNat_lt (x : ByteString) : leNat x < 256 ^ x.length := by
  induction x with
  | nil => simp [leNat]
  | cons b bs ih =>
    have hb := b.isLt
    simp only [leNat, List.length_cons, pow_succ]
    omega

theorem leNat_leBytes (n v : Nat) : leNat (leBytes n v) = v % 256 ^ n := by
  induction n generalizing v with
  | zero => simp [leBytes, leNat, Nat.mod_one]
  | succ n ih =>
    rw [leBytes, leNat, ih, BitVec.toNat_ofNat, pow_succ 256 n, show (2 : Nat) ^ 8 = 256 by decide,
      Nat.mul_comm (256 ^ n) 256, Nat.mod_mul]

theorem leBytes_leNat (x : ByteString) : leBytes x.length (leNat x) = x := by
  induction x with
  | nil => rfl
  | cons b bs ih =>
    have hb := b.isLt
    have h1 : (b.toNat + 256 * leNat bs) / 256 = leNat bs := by omega
    have h2 : BitVec.ofNat 8 (b.toNat + 256 * leNat bs) = b := by
      apply BitVec.eq_of_toNat_eq
      rw [BitVec.toNat_ofNat]
      omega
    simp [leNat, leBytes, h1, h2, ih]

@[simp] theorem commandOf_opcodeOf (k : CmdKind) : commandOf (opcodeOf k) = some k := by
  cases k <;> rfl

theorem opcodeOf_commandOf {op : Byte} {k : CmdKind} (h : commandOf op = some k) : op = opcodeOf k := by
  apply BitVec.eq_of_toNat_eq
  unfold commandOf at h
  split at h <;> simp_all <;> subst h <;> rfl

/-- An opcode is reserved exactly when it is 0x00 or 0x09 to 0xFF (30_encoding R87). -/
theorem commandOf_eq_none_iff (op : Byte) : commandOf op = none ↔ op = 0 ∨ 9 ≤ op.toNat := by
  have h0 : op = 0 ↔ op.toNat = 0 := by
    constructor
    · rintro rfl; rfl
    · intro h; exact BitVec.eq_of_toNat_eq h
  rw [h0]
  unfold commandOf
  constructor
  · intro h
    split at h <;> simp_all
    omega
  · intro h
    split <;> simp_all

/-- What `field` reads (00_scope R14). -/
theorem field_ofNat (v hi lo : Nat) (hv : v < 2 ^ 64) : field (BitVec.ofNat 64 v) hi lo = v / 2 ^ lo % 2 ^ (hi - lo + 1) := by
  rw [field, BitVec.extractLsb'_toNat, BitVec.toNat_ofNat, Nat.mod_eq_of_lt hv, Nat.shiftRight_eq_div_pow]

theorem headerWord_eq (f : Format) (bs : ByteString) :
    headerWord f bs = BitVec.ofNat 64 (leNat (bs.take f.headerBytes)) := rfl

theorem headerNat_lt (f : Format) (bs : ByteString) : leNat (bs.take f.headerBytes) < 2 ^ 64 := by
  refine lt_of_lt_of_le (leNat_lt _) ?_
  have h1 : (bs.take f.headerBytes).length ≤ 8 := by
    rw [List.length_take]
    cases f <;> simp [Format.headerBytes]
  calc 256 ^ (bs.take f.headerBytes).length ≤ 256 ^ 8 := Nat.pow_le_pow_right (by decide) h1
    _ = 2 ^ 64 := by decide

/-- The header word depends on the header bytes alone. -/
theorem headerWord_append (f : Format) {bs : ByteString} (more : ByteString) (h : f.headerBytes ≤ bs.length) :
    headerWord f (bs ++ more) = headerWord f bs := by
  simp [headerWord, List.take_append_of_le_length h]

/-- The verdict on a whole frame is not changed by the bytes that follow it (30_encoding R80: "Frames
follow one another on the command stream with nothing between them"). -/
theorem decode_append {bs : ByteString} (more : ByteString) (h : decode bs ≠ .incomplete) :
    decode (bs ++ more) = decode bs := by
  cases bs with
  | nil => exact absurd rfl h
  | cons op bs =>
    simp only [decode, List.cons_append] at h ⊢
    split
    · rename_i k hk
      simp only [hk] at h
      have hh : ¬ (op :: bs).length < (formatOf k).headerBytes := by
        intro hlt; exact h (by unfold decodeKnown; simp only []; rw [if_pos hlt])
      have hw := headerWord_append (formatOf k) (bs := op :: bs) more (by omega)
      rw [List.cons_append] at hw
      have hp : ¬ (op :: bs).length < (formatOf k).headerBytes + payloadBytes k (headerWord (formatOf k) (op :: bs)) := by
        intro hlt; exact h (by unfold decodeKnown; simp only []; rw [if_neg hh, if_pos hlt])
      unfold decodeKnown
      simp only [hw]
      have hl : (op :: (bs ++ more)).length = (op :: bs).length + more.length := by simp; omega
      rw [if_neg (by omega), if_neg (by omega), if_neg hh, if_neg hp]
      have ht : (op :: (bs ++ more)).take ((formatOf k).headerBytes + payloadBytes k (headerWord (formatOf k) (op :: bs))) =
          (op :: bs).take ((formatOf k).headerBytes + payloadBytes k (headerWord (formatOf k) (op :: bs))) := by
        rw [← List.cons_append, List.take_append_of_le_length (by omega)]
      rw [ht]
    · rename_i hk
      simp only [hk] at h
      by_cases hlt : (op :: bs).length < 4
      · exact absurd (if_pos hlt) h
      · have hl : (op :: (bs ++ more)).length = (op :: bs).length + more.length := by simp; omega
        rw [if_neg (by omega), if_neg hlt]

/-- A decoded frame is no longer than the stream, and not empty. -/
theorem decode_command_length {bs : ByteString} {i : Instr} {n : Nat} (h : decode bs = .command i n) :
    4 ≤ n ∧ n ≤ bs.length := by
  cases bs with
  | nil => simp [decode] at h
  | cons op bs =>
    simp only [decode] at h
    split at h
    · rename_i k hk
      unfold decodeKnown at h
      simp only [] at h
      split at h
      · simp at h
      · split at h
        · simp at h
        · split at h
          · simp only [Decoded.command.injEq] at h
            have : 4 ≤ (formatOf k).headerBytes := by cases k <;> decide
            omega
          · simp at h
    · split at h <;> simp at h

theorem decode_illegal_length {bs : ByteString} {why : IllegalHeader} {n : Nat} (h : decode bs = .illegal why n) :
    4 ≤ n ∧ n ≤ bs.length := by
  cases bs with
  | nil => simp [decode] at h
  | cons op bs =>
    simp only [decode] at h
    split at h
    · rename_i k hk
      unfold decodeKnown at h
      simp only [] at h
      split at h
      · simp at h
      · split at h
        · simp at h
        · split at h
          · simp at h
          · simp only [Decoded.illegal.injEq] at h
            have : 4 ≤ (formatOf k).headerBytes := by cases k <;> decide
            omega
    · split at h
      · simp at h
      · rename_i hlt
        simp only [Decoded.illegal.injEq] at h
        omega

theorem assemble_command? (k : CmdKind) (w : BitVec 64) (x : ByteString) : (assemble k w x).command? = some k := by
  cases k <;> rfl

/-- The decoder reads only commands: micro-operations and pseudo-commands have no encoding (30_encoding R90, R92). -/
theorem decode_isCommand {bs : ByteString} {i : Instr} {n : Nat} (h : decode bs = .command i n) :
    i.isCommand = true := by
  cases bs with
  | nil => simp [decode] at h
  | cons op bs =>
    simp only [decode] at h
    split at h
    · rename_i k hk
      unfold decodeKnown at h
      simp only [] at h
      split at h
      · simp at h
      · split at h
        · simp at h
        · split at h
          · simp only [Decoded.command.injEq] at h
            rw [← h.1]
            simp [Instr.isCommand, assemble_command?]
          · simp at h
    · split at h <;> simp at h

end Sys2Proof
end

