-- ==== Sys2Proof/Laws/Engine.lean ====
section
/-! SUPPORT. The engine lane by lane, and the sequencer's bookkeeping (40_permutation_engine R111 to R117). -/

namespace Sys2Proof.Machine

@[simp] theorem Plane.lane_ofLanes (f : Fin 4 → Lane) (x : Fin 4) : (Plane.ofLanes f).lane x = f x := by
  match x with
  | 0 => rfl
  | 1 => rfl
  | 2 => rfl
  | 3 => rfl

@[simp] theorem Lanes.lane_ofLanes (f : Fin 3 → Fin 4 → Lane) (y : Fin 3) (x : Fin 4) :
    (Lanes.ofLanes f).lane y x = f y x := by
  match y with
  | 0 => exact Plane.lane_ofLanes _ x
  | 1 => exact Plane.lane_ofLanes _ x
  | 2 => exact Plane.lane_ofLanes _ x

theorem Plane.ext_lane {p q : Plane} (h : ∀ x, p.lane x = q.lane x) : p = q := by
  obtain ⟨p0, p1, p2, p3⟩ := p
  obtain ⟨q0, q1, q2, q3⟩ := q
  have h0 : p0 = q0 := h 0
  have h1 : p1 = q1 := h 1
  have h2 : p2 = q2 := h 2
  have h3 : p3 = q3 := h 3
  rw [h0, h1, h2, h3]

/-- Two lane states are the same when all 12 lanes are. -/
theorem Lanes.ext_lane {a b : Lanes} (h : ∀ y x, a.lane y x = b.lane y x) : a = b := by
  obtain ⟨a0, a1, a2⟩ := a
  obtain ⟨b0, b1, b2⟩ := b
  have h0 : a0 = b0 := Plane.ext_lane fun x => h 0 x
  have h1 : a1 = b1 := Plane.ext_lane fun x => h 1 x
  have h2 : a2 = b2 := Plane.ext_lane fun x => h 2 x
  rw [h0, h1, h2]

/-- `rotl32` is the left rotation for every amount the engine uses (00_scope R14). -/
theorem rotl32_eq_rotateLeft (v : Lane) {n : Nat} (hn : n < 32) : rotl32 v n = v.rotateLeft n := by
  unfold rotl32
  split
  · subst n
    have h : v >>> 32 = 0 := by
      apply BitVec.eq_of_getLsbD_eq
      intro i _
      rw [BitVec.getLsbD_ushiftRight, BitVec.getLsbD_of_ge _ _ (by omega)]
      simp
    simp [BitVec.rotateLeft_def, h]
  · rw [BitVec.rotateLeft_def, Nat.mod_eq_of_lt hn]

theorem lane_theta (a : Lanes) (y : Fin 3) (x : Fin 4) :
    (theta a).lane y x = a.lane y x ^^^ (thetaEffect (columnParity a)).lane x := by
  simp [theta]

theorem lane_chi (a : Lanes) (y : Fin 3) (x : Fin 4) :
    (chi a).lane y x = a.lane y x ^^^ (~~~(a.lane (y + 1) x) &&& a.lane (y + 2) x) := by
  simp [chi]

@[simp] theorem rounds_nil (a : Lanes) : rounds [] a = a := rfl
@[simp] theorem rounds_cons (r : Fin 12) (rs : List (Fin 12)) (a : Lanes) :
    rounds (r :: rs) a = rounds rs (round r a) := rfl

theorem rounds_append (rs qs : List (Fin 12)) (a : Lanes) : rounds (rs ++ qs) a = rounds qs (rounds rs a) := by
  induction rs generalizing a with
  | nil => rfl
  | cons r rs ih => exact ih _

@[simp] theorem execAll_nil (s : State) : execAll [] s = .next s := rfl

theorem execAll_cons_next {i : Instr} {s t : State} (h : exec i s = .next t) (is : List Instr) :
    execAll (i :: is) s = execAll is t := by simp [execAll, h]

theorem execAll_append_next {is js : List Instr} {s t : State} (h : execAll is s = .next t) :
    execAll (is ++ js) s = execAll js t := by
  induction is generalizing s with
  | nil => simp only [execAll_nil, Host.Outcome.next.injEq] at h; simp [h]
  | cons i is ih =>
    simp only [execAll, List.cons_append] at h ⊢
    split at h
    · exact ih h
    · simp at h
    · simp at h

/-! ### The sequencer -/

theorem State.engineRuns_iff (s : State) : s.engineRuns = true ↔ s.busy = true ∧ s.permuting = true := by
  simp [State.engineRuns]

theorem engineStart_busy {s : State} (h : s.busy = true) :
    engineStart s = { s with permuting := true, rnd := 0, stp := 0 } := by simp [engineStart, h]

/-- The selected micro-operation writes lanes only. -/
theorem exec_selected (s : State) : ∃ a, exec (selected s) s = .next (s.putLanes a) := by
  unfold selected
  split <;> exact ⟨_, rfl⟩

/-- An engine that is not running stays as it is. -/
theorem engineTick_idle {s : State} (h : s.engineRuns = false) : engineTick s = .next s := by
  simp [engineTick, h]

/-- All that a tick of a running engine can do: new lanes, and the sequencer moves on. -/
theorem engineTick_running {s : State} (h : s.engineRuns = true) :
    ∃ a, exec (selected s) s = .next (s.putLanes a) ∧ engineTick s = .next (advance (s.putLanes a)) := by
  obtain ⟨a, ha⟩ := exec_selected s
  exact ⟨a, ha, by simp [engineTick, h, ha]⟩

theorem engineTicks_idle {s : State} (h : s.engineRuns = false) (n : Nat) : engineTicks n s = .next s := by
  induction n with
  | zero => rfl
  | succ n ih => simpa [engineTicks, engineTick_idle h] using ih

theorem engineTicks_add {m n : Nat} {s t : State} (h : engineTicks m s = .next t) :
    engineTicks (m + n) s = engineTicks n t := by
  induction m generalizing s with
  | zero => simp only [engineTicks, Host.Outcome.next.injEq] at h; simp [h]
  | succ m ih =>
    rw [Nat.succ_add, engineTicks]
    rw [engineTicks] at h
    split at h
    · exact ih h
    · simp at h
    · simp at h

end Sys2Proof.Machine
end

