-- ==== Sys2Proof/Laws/Instances.lean ====
section
/-! SUPPORT. Reset numbers of several instances: they differ after the first reset and after every later one, so no two
instances' lanes are given the same free values (log 11, log 15). -/

namespace Sys2Proof.Machine

@[simp] theorem afterReset_resets (k : Nat) : (State.afterReset k).resets = k := rfl

@[simp] theorem applyReset_resets (s : State) : (applyReset s).resets = s.resets + instanceCount := rfl

theorem resetInstances_resets : resetInstances.map State.resets = List.range instanceCount := by
  simp [resetInstances, Function.comp_def]

theorem resetInstances_distinct : (resetInstances.map State.resets).Nodup := by
  rw [resetInstances_resets]
  exact List.nodup_range

theorem resetAll_distinct {is : List State} (h : (is.map State.resets).Nodup) :
    ((resetAll is).map State.resets).Nodup := by
  have e : (resetAll is).map State.resets = (is.map State.resets).map (· + instanceCount) := by
    simp [resetAll, Function.comp_def]
  rw [e]
  exact h.map fun a b hab => Nat.add_right_cancel hab

end Sys2Proof.Machine
end

