-- ==== Sys2Proof/Laws/PerInstr.lean ====
section
/-! SUPPORT. The per-instruction family `FrameLength`: a well-formed command has a frame as long as its
header announces, and nothing else has a frame (30_encoding R84, R90, R92). -/

namespace Sys2Proof.Laws

/-- What the encoder answers for an operation: a frame exactly for the well-formed commands, and its length
is the header's (4 bytes, or 8 for format L) and the payload's (30_encoding R81 to R84). -/
def FrameLength.Statement (i : Instr) : Prop :=
  ((encode i).isSome = (i.isCommand && i.wellFormed)) ∧
  ∀ bytes, encode i = some bytes → bytes.length =
    match i with
    | .initHash => 4
    | .initKeyed key nonce => 4 + (key.length + nonce.length)
    | .absorb x => 8 + x.length
    | .squeeze _ => 8
    | .encrypt p => 8 + p.length
    | .decrypt c => 8 + c.length
    | .squeezeTag => 4
    | .verifyTag t => 8 + t.length
    | .theta | .rhoWest | .iota _ | .chi | .rhoEast | .round _ | .permute | .up _ | .down _ _ | .downOvr _ _
    | .hash _ | .aeadEnc _ _ _ _ | .aeadDec _ _ _ _ _ => 0

theorem FrameLength.initHash : FrameLength.Statement (.initHash) := by
  constructor
  · unfold encode; split <;> simp_all [Instr.isCommand, Instr.command?]
  · intro bytes h
    unfold encode at h
    split at h <;> simp_all [headerN]
    subst h; simp

theorem FrameLength.initKeyed (key : ByteString) (nonce : ByteString) : FrameLength.Statement (.initKeyed key nonce) := by
  constructor
  · unfold encode; split <;> simp_all [Instr.isCommand, Instr.command?]
  · intro bytes h
    unfold encode at h
    split at h <;> simp_all [headerK]
    subst h; simp; omega

theorem FrameLength.absorb (x : ByteString) : FrameLength.Statement (.absorb x) := by
  constructor
  · unfold encode; split <;> simp_all [Instr.isCommand, Instr.command?]
  · intro bytes h
    unfold encode at h
    split at h <;> simp_all [headerL]
    subst h; simp; omega

theorem FrameLength.squeeze (l : Nat) : FrameLength.Statement (.squeeze l) := by
  constructor
  · unfold encode; split <;> simp_all [Instr.isCommand, Instr.command?]
  · intro bytes h
    unfold encode at h
    split at h <;> simp_all [headerL]
    subst h; simp

theorem FrameLength.encrypt (p : ByteString) : FrameLength.Statement (.encrypt p) := by
  constructor
  · unfold encode; split <;> simp_all [Instr.isCommand, Instr.command?]
  · intro bytes h
    unfold encode at h
    split at h <;> simp_all [headerL]
    subst h; simp; omega

theorem FrameLength.decrypt (c : ByteString) : FrameLength.Statement (.decrypt c) := by
  constructor
  · unfold encode; split <;> simp_all [Instr.isCommand, Instr.command?]
  · intro bytes h
    unfold encode at h
    split at h <;> simp_all [headerL]
    subst h; simp; omega

theorem FrameLength.squeezeTag : FrameLength.Statement (.squeezeTag) := by
  constructor
  · unfold encode; split <;> simp_all [Instr.isCommand, Instr.command?]
  · intro bytes h
    unfold encode at h
    split at h <;> simp_all [headerN]
    subst h; simp

theorem FrameLength.verifyTag (t : ByteString) : FrameLength.Statement (.verifyTag t) := by
  constructor
  · unfold encode; split <;> simp_all [Instr.isCommand, Instr.command?]
  · intro bytes h
    unfold encode at h
    split at h <;> simp_all [headerL]
    subst h; simp; omega

theorem FrameLength.theta : FrameLength.Statement (.theta) := by
  constructor
  · unfold encode; split <;> simp_all [Instr.isCommand, Instr.command?]
  · intro bytes h
    unfold encode at h
    split at h <;> simp_all


theorem FrameLength.rhoWest : FrameLength.Statement (.rhoWest) := by
  constructor
  · unfold encode; split <;> simp_all [Instr.isCommand, Instr.command?]
  · intro bytes h
    unfold encode at h
    split at h <;> simp_all


theorem FrameLength.iota (r : Fin 12) : FrameLength.Statement (.iota r) := by
  constructor
  · unfold encode; split <;> simp_all [Instr.isCommand, Instr.command?]
  · intro bytes h
    unfold encode at h
    split at h <;> simp_all


theorem FrameLength.chi : FrameLength.Statement (.chi) := by
  constructor
  · unfold encode; split <;> simp_all [Instr.isCommand, Instr.command?]
  · intro bytes h
    unfold encode at h
    split at h <;> simp_all


theorem FrameLength.rhoEast : FrameLength.Statement (.rhoEast) := by
  constructor
  · unfold encode; split <;> simp_all [Instr.isCommand, Instr.command?]
  · intro bytes h
    unfold encode at h
    split at h <;> simp_all


theorem FrameLength.round (r : Fin 12) : FrameLength.Statement (.round r) := by
  constructor
  · unfold encode; split <;> simp_all [Instr.isCommand, Instr.command?]
  · intro bytes h
    unfold encode at h
    split at h <;> simp_all


theorem FrameLength.permute : FrameLength.Statement (.permute) := by
  constructor
  · unfold encode; split <;> simp_all [Instr.isCommand, Instr.command?]
  · intro bytes h
    unfold encode at h
    split at h <;> simp_all


theorem FrameLength.up (cu : Byte) : FrameLength.Statement (.up cu) := by
  constructor
  · unfold encode; split <;> simp_all [Instr.isCommand, Instr.command?]
  · intro bytes h
    unfold encode at h
    split at h <;> simp_all


theorem FrameLength.down (x : ByteString) (cd : Byte) : FrameLength.Statement (.down x cd) := by
  constructor
  · unfold encode; split <;> simp_all [Instr.isCommand, Instr.command?]
  · intro bytes h
    unfold encode at h
    split at h <;> simp_all


theorem FrameLength.downOvr (x : ByteString) (cd : Byte) : FrameLength.Statement (.downOvr x cd) := by
  constructor
  · unfold encode; split <;> simp_all [Instr.isCommand, Instr.command?]
  · intro bytes h
    unfold encode at h
    split at h <;> simp_all


theorem FrameLength.hash (m : ByteString) : FrameLength.Statement (.hash m) := by
  constructor
  · unfold encode; split <;> simp_all [Instr.isCommand, Instr.command?]
  · intro bytes h
    unfold encode at h
    split at h <;> simp_all


theorem FrameLength.aeadEnc (key : ByteString) (nonce : ByteString) (ad : ByteString) (pt : ByteString) : FrameLength.Statement (.aeadEnc key nonce ad pt) := by
  constructor
  · unfold encode; split <;> simp_all [Instr.isCommand, Instr.command?]
  · intro bytes h
    unfold encode at h
    split at h <;> simp_all


theorem FrameLength.aeadDec (key : ByteString) (nonce : ByteString) (tag : ByteString) (ad : ByteString) (ct : ByteString) : FrameLength.Statement (.aeadDec key nonce tag ad ct) := by
  constructor
  · unfold encode; split <;> simp_all [Instr.isCommand, Instr.command?]
  · intro bytes h
    unfold encode at h
    split at h <;> simp_all


end Sys2Proof.Laws
end

