-- ==== Sys2Proof/Tests/Slice0.lean ====
section
/-! SUPPORT. Tests. Expected values are those of 95_test_vectors.md (section named at each test) or of the
worked example of the rule named; none was taken from this model's answers. -/

namespace Sys2Proof.Tests

open Sys2Proof Sys2Proof.Machine
open Host (Outcome)

set_option maxRecDepth 100000

/-! ### Fixtures -/

/-- Twelve lanes from a list. -/
def lanes12 (l : List Lane) : Lanes := Lanes.ofRegs fun i => l.getD i 0

/-- A state between commands with everything else at zero. -/
def mk (q : Seq) (ph : Phase) (m : Mode) (a : Lanes) : State :=
  { lanes := a, phase := ph, mode := m, seq := q, err := false, cause := 0, valid := false, acc := 0, chk := 0,
    rnd := 0, stp := 0, staging := [], busy := false, permuting := false, cmdIn := [], respOut := [], trace := [], resets := 0 }

/-- No instance, with the given bytes on the command stream. -/
def idleWith (bs : ByteString) : State := { mk .idle .up .hash Lanes.zero with cmdIn := bs }

/-- A state whose earlier command faulted. -/
def faulted (f : Raised) (s : State) : State := { s with err := true, cause := f.cause }

/-- What a step answered: the lanes. -/
def lanesOf : Outcome State Fault Refusal → Option Lanes
  | .next t => some t.lanes
  | .fault _ => none
  | .refused _ => none

/-- What a step answered: the response stream. -/
def respOf : Outcome State Fault Refusal → Option ByteString
  | .next t => some t.respOut
  | .fault _ => none
  | .refused _ => none

/-- What a step answered: STATUS and ACC. -/
def statusOf : Outcome State Fault Refusal → Option (BitVec 16 × Byte)
  | .next t => some (t.status, t.acc)
  | .fault _ => none
  | .refused _ => none

def key : ByteString := [0x00, 0x01, 0x02, 0x03, 0x04, 0x05, 0x06, 0x07, 0x08, 0x09, 0x0A, 0x0B, 0x0C, 0x0D,
    0x0E, 0x0F]

def nonce : ByteString := [0x10, 0x11, 0x12, 0x13, 0x14, 0x15, 0x16, 0x17, 0x18, 0x19, 0x1A, 0x1B, 0x1C, 0x1D,
    0x1E, 0x1F]

def ad : ByteString := [0xA0, 0xA1, 0xA2]

def pt : ByteString := [0x30, 0x31, 0x32, 0x33, 0x34, 0x35, 0x36, 0x37, 0x38, 0x39, 0x3A, 0x3B, 0x3C, 0x3D,
    0x3E, 0x3F, 0x40, 0x41, 0x42, 0x43]

def ct : ByteString := [0xA6, 0xD4, 0x55, 0xF6, 0xB8, 0x96, 0x8F, 0x04, 0x5B, 0x23, 0x71, 0x65, 0x5F, 0xE7,
    0x17, 0x7B, 0xA3, 0x33, 0xA5, 0x2F]

def tag : ByteString := [0x12, 0xD6, 0x8F, 0xD8, 0x64, 0x41, 0x6F, 0x85, 0x3D, 0xD7, 0x4D, 0x3A, 0x1B, 0xF1,
    0xFB, 0xB2]

/-- S_inc, `SB[i] = i` (section 3). -/
def sInc : Lanes := lanes12 [0x03020100, 0x07060504, 0x0B0A0908, 0x0F0E0D0C, 0x13121110, 0x17161514,
    0x1B1A1918, 0x1F1E1D1C, 0x23222120, 0x27262524, 0x2B2A2928, 0x2F2E2D2C]

/-! States of the programs P1 and P3 (section 6) between their commands. -/

/-- After P1's INIT_HASH. -/
def p1Init : State := mk .hInit .up .hash Lanes.zero

/-- After P1's ABSORB. -/
def p1Abs : State := mk .hAbs .down .hash (lanes12 [0x00000001, 0x00000000, 0x00000000, 0x00000000, 0x00000000,
    0x00000000, 0x00000000, 0x00000000, 0x00000000, 0x00000000, 0x00000000, 0x01000000])

/-- After P3's INIT_KEYED. -/
def p3Init : State := mk .kInit .down .keyed (lanes12 [0x03020100, 0x07060504, 0x0B0A0908, 0x0F0E0D0C,
    0x13121110, 0x17161514, 0x1B1A1918, 0x1F1E1D1C, 0x00000110, 0x00000000, 0x00000000, 0x02000000])

/-- After P3's ABSORB. -/
def p3Abs : State := mk .kAd .down .keyed (lanes12 [0xDEB426C1, 0x1998B350, 0xFDB5F6C9, 0x26DB5C5A, 0x69E703AF,
    0x6D4D8F93, 0xBB18B9AB, 0x915BA4FD, 0x6B2C8A13, 0xD8981AB7, 0xBFEAAAE9, 0x7CD5AD03])

/-- After P3's ENCRYPT. -/
def p3Crypt : State := mk .kCrypt .down .keyed (lanes12 [0x43424140, 0x28C47C1D, 0x4CA26A27, 0x7AFD9A7F,
    0xF1940EAB, 0xBEE5B0A1, 0xF21D3C03, 0xDE56B56B, 0x21F6C7A8, 0x985BBCEE, 0x692FFEB9, 0x04AD45E1])

/-- After P3's SQUEEZE_TAG. -/
def p3Done : State := mk .done .up .keyed (lanes12 [0xD88FD612, 0x856F4164, 0x3A4DD73D, 0xB2FBF11B, 0xC3D38F57,
    0xF4AC1C9F, 0x66FC7954, 0x7DFE9F70, 0x40203347, 0x27929DE3, 0x898C9F92, 0xCB6BBFAF])

/-! ### Well-formedness: each check refuses an ill-formed operation -/


    theorem test_illformed_initKeyed_key : Instr.wellFormed (.initKeyed (List.replicate 256 0) []) = false := by decide


    theorem test_illformed_initKeyed_nonce : Instr.wellFormed (.initKeyed [] (List.replicate 256 0)) = false := by decide

theorem test_illformed_down : Instr.wellFormed (.down (List.replicate 45 0) 0) = false := by decide

theorem test_illformed_downOvr : Instr.wellFormed (.downOvr (List.replicate 45 0) 0) = false := by decide

theorem test_illformed_squeeze : Instr.wellFormed (.squeeze (2 ^ 32)) = false := by decide


    theorem test_illformed_absorb (x : ByteString) (h : x.length = 2 ^ 32) : Instr.wellFormed (.absorb x) = false := by simp [Instr.wellFormed,
    h]


    theorem test_illformed_encrypt (x : ByteString) (h : x.length = 2 ^ 32) : Instr.wellFormed (.encrypt x) = false := by simp [Instr.wellFormed,
    h]


    theorem test_illformed_decrypt (x : ByteString) (h : x.length = 2 ^ 32) : Instr.wellFormed (.decrypt x) = false := by simp [Instr.wellFormed,
    h]


    theorem test_illformed_verifyTag (x : ByteString) (h : x.length = 2 ^ 32) : Instr.wellFormed (.verifyTag x) = false := by simp [Instr.wellFormed,
    h]


    theorem test_illformed_hash (x : ByteString) (h : x.length = 2 ^ 32) : Instr.wellFormed (.hash x) = false := by simp [Instr.wellFormed,
    h]


    theorem test_illformed_aeadEnc_ad (x : ByteString) (h : x.length = 2 ^ 32) : Instr.wellFormed (.aeadEnc [] [] x []) = false := by simp [Instr.wellFormed,
    h]


    theorem test_illformed_aeadEnc_pt (x : ByteString) (h : x.length = 2 ^ 32) : Instr.wellFormed (.aeadEnc [] [] [] x) = false := by simp [Instr.wellFormed,
    h]


    theorem test_illformed_aeadDec_ad (x : ByteString) (h : x.length = 2 ^ 32) : Instr.wellFormed (.aeadDec [] [] [] x []) = false := by simp [Instr.wellFormed,
    h]


    theorem test_illformed_aeadDec_ct (x : ByteString) (h : x.length = 2 ^ 32) : Instr.wellFormed (.aeadDec [] [] [] [] x) = false := by simp [Instr.wellFormed,
    h]


    theorem test_wellformed_at_the_limits : Instr.wellFormed (.initKeyed (List.replicate 255 0) (List.replicate 255 0)) = true ∧ Instr.wellFormed (.squeeze (2 ^ 32 - 1)) = true ∧ Instr.wellFormed (.down (List.replicate 44 0) 0) = true := by decide

/-! ### Decoding: the frames of section 2.1 and the headers of section 2.2 -/

theorem test_decode_initHash : decode [0x01, 0x00, 0x00,
    0x00] = .command (.initHash) 4 ∧ encode (.initHash) = some [0x01, 0x00, 0x00, 0x00] := by decide

theorem test_decode_initKeyed : decode [0x02, 0x10, 0x10, 0x00, 0x00, 0x01, 0x02, 0x03, 0x04, 0x05, 0x06, 0x07,
    0x08, 0x09, 0x0A, 0x0B, 0x0C, 0x0D, 0x0E, 0x0F, 0x10, 0x11, 0x12, 0x13, 0x14, 0x15, 0x16, 0x17, 0x18, 0x19,
    0x1A, 0x1B, 0x1C, 0x1D, 0x1E,
    0x1F] = .command (.initKeyed key nonce) 36 ∧ encode (.initKeyed key nonce) = some [0x02, 0x10, 0x10, 0x00,
    0x00, 0x01, 0x02, 0x03, 0x04, 0x05, 0x06, 0x07, 0x08, 0x09, 0x0A, 0x0B, 0x0C, 0x0D, 0x0E, 0x0F, 0x10, 0x11,
    0x12, 0x13, 0x14, 0x15, 0x16, 0x17, 0x18, 0x19, 0x1A, 0x1B, 0x1C, 0x1D, 0x1E, 0x1F] := by decide

theorem test_decode_absorb_empty : decode [0x03, 0x00, 0x00, 0x00, 0x00, 0x00, 0x00,
    0x00] = .command (.absorb []) 8 ∧ encode (.absorb []) = some [0x03, 0x00, 0x00, 0x00, 0x00, 0x00, 0x00,
    0x00] := by decide

theorem test_decode_absorb_abc : decode [0x03, 0x00, 0x00, 0x00, 0x03, 0x00, 0x00, 0x00, 0x61, 0x62,
    0x63] = .command (.absorb [0x61, 0x62, 0x63]) 11 ∧ encode (.absorb [0x61, 0x62, 0x63]) = some [0x03, 0x00,
    0x00, 0x00, 0x03, 0x00, 0x00, 0x00, 0x61, 0x62, 0x63] := by decide

theorem test_decode_squeeze_32 : decode [0x04, 0x00, 0x00, 0x00, 0x20, 0x00, 0x00,
    0x00] = .command (.squeeze 32) 8 ∧ encode (.squeeze 32) = some [0x04, 0x00, 0x00, 0x00, 0x20, 0x00, 0x00,
    0x00] := by decide

theorem test_decode_squeeze_max : decode [0x04, 0x00, 0x00, 0x00, 0xFF, 0xFF, 0xFF,
    0xFF] = .command (.squeeze 4294967295) 8 ∧ encode (.squeeze 4294967295) = some [0x04, 0x00, 0x00, 0x00,
    0xFF, 0xFF, 0xFF, 0xFF] := by decide

theorem test_decode_encrypt : decode [0x05, 0x00, 0x00, 0x00, 0x02, 0x00, 0x00, 0x00, 0x30,
    0x31] = .command (.encrypt [0x30, 0x31]) 10 ∧ encode (.encrypt [0x30, 0x31]) = some [0x05, 0x00, 0x00,
    0x00, 0x02, 0x00, 0x00, 0x00, 0x30, 0x31] := by decide

theorem test_decode_decrypt_empty : decode [0x06, 0x00, 0x00, 0x00, 0x00, 0x00, 0x00,
    0x00] = .command (.decrypt []) 8 ∧ encode (.decrypt []) = some [0x06, 0x00, 0x00, 0x00, 0x00, 0x00, 0x00,
    0x00] := by decide

theorem test_decode_squeezeTag : decode [0x07, 0x00, 0x00,
    0x00] = .command (.squeezeTag) 4 ∧ encode (.squeezeTag) = some [0x07, 0x00, 0x00, 0x00] := by decide

theorem test_decode_verifyTag : decode [0x08, 0x00, 0x00, 0x00, 0x10, 0x00, 0x00, 0x00, 0x12, 0xD6, 0x8F, 0xD8,
    0x64, 0x41, 0x6F, 0x85, 0x3D, 0xD7, 0x4D, 0x3A, 0x1B, 0xF1, 0xFB,
    0xB2] = .command (.verifyTag tag) 24 ∧ encode (.verifyTag tag) = some [0x08, 0x00, 0x00, 0x00, 0x10, 0x00,
    0x00, 0x00, 0x12, 0xD6, 0x8F, 0xD8, 0x64, 0x41, 0x6F, 0x85, 0x3D, 0xD7, 0x4D, 0x3A, 0x1B, 0xF1, 0xFB,
    0xB2] := by decide

theorem test_decode_absorb_300 : decode ([0x03, 0x00, 0x00, 0x00, 0x2C, 0x01, 0x00,
    0x00] ++ List.replicate 300 0x00) = .command (.absorb (List.replicate 300 0x00)) 308 := by decide

theorem test_decode_opcode_00 : decode [0x00, 0x00, 0x00,
    0x00] = .illegal (.reservedOpcode 0x00) 4 := by decide

theorem test_decode_opcode_09 : decode [0x09, 0x00, 0x00,
    0x00] = .illegal (.reservedOpcode 0x09) 4 := by decide

theorem test_decode_opcode_FF : decode [0xFF, 0xFF, 0xFF,
    0xFF] = .illegal (.reservedOpcode 0xFF) 4 := by decide

theorem test_decode_zero_initHash : decode [0x01, 0x01, 0x00,
    0x00] = .illegal (.nonzeroZeroField .initHash) 4 := by decide

theorem test_decode_zero_squeezeTag : decode [0x07, 0x00, 0x00,
    0x80] = .illegal (.nonzeroZeroField .squeezeTag) 4 := by decide

theorem test_decode_zero_absorb : decode [0x03, 0x00, 0x01, 0x00, 0x02, 0x00, 0x00, 0x00, 0xAA,
    0xBB] = .illegal (.nonzeroZeroField .absorb) 10 := by decide

theorem test_decode_zero_squeeze : decode [0x04, 0x00, 0x00, 0x01, 0x00, 0x00, 0x00,
    0x00] = .illegal (.nonzeroZeroField .squeeze) 8 := by decide

theorem test_decode_zero_initKeyed : decode [0x02, 0x10, 0x10, 0x01, 0x00, 0x01, 0x02, 0x03, 0x04, 0x05, 0x06,
    0x07, 0x08, 0x09, 0x0A, 0x0B, 0x0C, 0x0D, 0x0E, 0x0F, 0x10, 0x11, 0x12, 0x13, 0x14, 0x15, 0x16, 0x17, 0x18,
    0x19, 0x1A, 0x1B, 0x1C, 0x1D, 0x1E, 0x1F] = .illegal (.nonzeroZeroField .initKeyed) 36 := by decide

theorem test_decode_initKeyed_no_lengths : decode [0x02, 0x00, 0x00,
    0x00] = .command (.initKeyed [] []) 4 ∧ encode (.initKeyed [] []) = some [0x02, 0x00, 0x00,
    0x00] := by decide

theorem test_decode_initKeyed_short_nonce : decode [0x02, 0x10, 0x0F, 0x00, 0x00, 0x01, 0x02, 0x03, 0x04, 0x05,
    0x06, 0x07, 0x08, 0x09, 0x0A, 0x0B, 0x0C, 0x0D, 0x0E, 0x0F, 0x10, 0x11, 0x12, 0x13, 0x14, 0x15, 0x16, 0x17,
    0x18, 0x19, 0x1A, 0x1B, 0x1C, 0x1D,
    0x1E] = .command (.initKeyed key (nonce.take 15)) 35 ∧ encode (.initKeyed key (nonce.take 15)) = some [0x02,
    0x10, 0x0F, 0x00, 0x00, 0x01, 0x02, 0x03, 0x04, 0x05, 0x06, 0x07, 0x08, 0x09, 0x0A, 0x0B, 0x0C, 0x0D, 0x0E,
    0x0F, 0x10, 0x11, 0x12, 0x13, 0x14, 0x15, 0x16, 0x17, 0x18, 0x19, 0x1A, 0x1B, 0x1C, 0x1D,
    0x1E] := by decide

theorem test_decode_incomplete : decode [] = .incomplete ∧ decode [0x04, 0x00,
    0x00] = .incomplete ∧ decode [0x04, 0x00, 0x00, 0x00] = .incomplete ∧ decode [0x03, 0x00, 0x00, 0x00, 0x03,
    0x00, 0x00, 0x00, 0x61, 0x62] = .incomplete := by decide

/-! The same headers as table words, bit 0 the least significant bit of the first byte; operand bytes past the word are zero. -/


    theorem test_tableWord_commands : decodeTableWord 32 0x00000001 = some .initHash ∧ decodeTableWord 32 0x00021002 = some (.initKeyed (List.replicate 16 0) [0,
    0]) ∧ decodeTableWord 64 0x0000010000000004 = some (.squeeze 256) ∧ decodeTableWord 64 0x0000000200000003 = some (.absorb [0,
    0]) ∧ decodeTableWord 32 0x00000005 = some (.encrypt []) := by decide


    theorem test_tableWord_refused : decodeTableWord 32 0x00000000 = none ∧ decodeTableWord 32 0x00000009 = none ∧ decodeTableWord 32 0x80000007 = none := by decide

/-- Section 2.2, last row; and SQUEEZE_TAG right after reset. -/
theorem test_withFetchWord_runs_it : statusOf (step (State.reset.withFetchWord 32 0x00000001)) = some (0x0001,
    0) ∧ respOf (step (State.reset.withFetchWord 32 0x00000007)) = some [0x03] := by decide

/-- Section 2.2. -/
theorem test_step_illegal_zero_field : respOf (step (idleWith [0x03, 0x00, 0x01, 0x00, 0x02, 0x00, 0x00, 0x00,
    0xAA, 0xBB, 0x01])) = some [0x01] ∧ statusOf (step (idleWith [0x03, 0x00, 0x01, 0x00, 0x02, 0x00, 0x00,
    0x00, 0xAA, 0xBB, 0x01])) = some (0x0060, 0) := by decide

/-- Section 2.2, the end of the desynchronised stream. -/
theorem test_step_desynchronised : statusOf (step { faulted .illegalCommand p1Init with cmdIn := [0x04, 0x00,
    0x00, 0x00] }) = some (0x0061, 0) := by decide

/-! ### The engine (section 3) -/

/-- Section 3.1. -/
theorem test_theta_inc : lanesOf (exec (.theta) (mk .idle .up .hash sInc)) = some (lanes12 [0x6B8AA948,
    0xED0C2FCE, 0x6081A243, 0xE60724C5, 0x7B9AB958, 0xFD1C3FDE, 0x7091B253, 0xF61734D5, 0x4BAA8968, 0xCD2C0FEE,
    0x40A18263, 0xC62704E5]) := by decide

/-- Section 3.5, bit 31 of L_3. -/
theorem test_theta_wraps : lanesOf (exec (.theta) (mk .idle .up .hash (lanes12 [0x00000000, 0x00000000,
    0x00000000, 0x80000000, 0x00000000, 0x00000000, 0x00000000, 0x00000000, 0x00000000, 0x00000000, 0x00000000,
    0x00000000]))) = some (lanes12 [0x00002010, 0x00000000, 0x00000000, 0x80000000, 0x00002010, 0x00000000,
    0x00000000, 0x00000000, 0x00002010, 0x00000000, 0x00000000, 0x00000000]) := by decide

/-- Section 3.1. -/
theorem test_rhoWest_inc : lanesOf (exec (.rhoWest) (mk .idle .up .hash sInc)) = some (lanes12 [0x03020100,
    0x07060504, 0x0B0A0908, 0x0F0E0D0C, 0x1F1E1D1C, 0x13121110, 0x17161514, 0x1B1A1918, 0x11090119, 0x31292139,
    0x51494159, 0x71696179]) := by decide

/-- Section 3.5. -/
theorem test_rhoWest_wraps : lanesOf (exec (.rhoWest) (mk .idle .up .hash (lanes12 [0x00000000, 0x00000000,
    0x00000000, 0x00000000, 0x00000001, 0x00000002, 0x00000003, 0x00000004, 0x00200000, 0x00200000, 0x00200000,
    0x00200000]))) = some (lanes12 [0x00000000, 0x00000000, 0x00000000, 0x00000000, 0x00000004, 0x00000001,
    0x00000002, 0x00000003, 0x00000001, 0x00000001, 0x00000001, 0x00000001]) := by decide

/-- Section 3.1. -/
theorem test_iota_first : lanesOf (exec (.iota 0) (mk .idle .up .hash sInc)) = some (lanes12 [0x03020158,
    0x07060504, 0x0B0A0908, 0x0F0E0D0C, 0x13121110, 0x17161514, 0x1B1A1918, 0x1F1E1D1C, 0x23222120, 0x27262524,
    0x2B2A2928, 0x2F2E2D2C]) := by decide

/-- Section 3.1. -/
theorem test_iota_last : lanesOf (exec (.iota 11) (mk .idle .up .hash sInc)) = some (lanes12 [0x03020112,
    0x07060504, 0x0B0A0908, 0x0F0E0D0C, 0x13121110, 0x17161514, 0x1B1A1918, 0x1F1E1D1C, 0x23222120, 0x27262524,
    0x2B2A2928, 0x2F2E2D2C]) := by decide

/-- Section 3.1. -/
theorem test_chi_inc : lanesOf (exec (.chi) (mk .idle .up .hash sInc)) = some (lanes12 [0x23222120, 0x27262524,
    0x2B2A2928, 0x2F2E2D2C, 0x13121110, 0x17161514, 0x1B1A1918, 0x1F1E1D1C, 0x33323130, 0x37363534, 0x3B3A3938,
    0x3F3E3D3C]) := by decide

/-- Section 3.5. -/
theorem test_chi_column : lanesOf (exec (.chi) (mk .idle .up .hash (lanes12 [0xFFFF0000, 0x00000000,
    0x00000000, 0x00000000, 0xFF00FF00, 0x00000000, 0x00000000, 0x00000000, 0xF0F0F0F0, 0x00000000, 0x00000000,
    0x00000000]))) = some (lanes12 [0xFF0F00F0, 0x00000000, 0x00000000, 0x00000000, 0xF00FFF00, 0x00000000,
    0x00000000, 0x00000000, 0xF0F00FF0, 0x00000000, 0x00000000, 0x00000000]) := by decide

/-- Section 3.1. -/
theorem test_rhoEast_inc : lanesOf (exec (.rhoEast) (mk .idle .up .hash sInc)) = some (lanes12 [0x03020100,
    0x07060504, 0x0B0A0908, 0x0F0E0D0C, 0x26242220, 0x2E2C2A28, 0x36343230, 0x3E3C3A38, 0x2A29282B, 0x2E2D2C2F,
    0x22212023, 0x26252427]) := by decide

/-- Section 3.5. -/
theorem test_rhoEast_wraps : lanesOf (exec (.rhoEast) (mk .idle .up .hash (lanes12 [0x00000000, 0x00000000,
    0x00000000, 0x00000000, 0x80000000, 0x80000000, 0x80000000, 0x80000000, 0x01000000, 0x00000002, 0x00000003,
    0x00000004]))) = some (lanes12 [0x00000000, 0x00000000, 0x00000000, 0x00000000, 0x00000001, 0x00000001,
    0x00000001, 0x00000001, 0x00000300, 0x00000400, 0x00000001, 0x00000200]) := by decide

/-- Section 3.2. -/
theorem test_round_inc : lanesOf (exec (.round 0) (mk .idle .up .hash sInc)) = some (lanes12 [0x6BC2EB18,
    0xED6969EF, 0x6082A242, 0xEE2128E5, 0xBB2F3BAB, 0xED3561BD, 0x3B393F39, 0x6D23652F, 0x0F079991, 0xB7BC2328,
    0x5E5698C0, 0xEDE67972]) := by decide

/-- Section 3.4, the last round. -/
theorem test_round_last : lanesOf (exec (.round 11) (mk .idle .up .hash (lanes12 [0x0833721D, 0xA454BDF8,
    0x5346C452, 0x6A6F04BF, 0xBFA7F5EE, 0x7158D909, 0x8DD249B5, 0x8F82A189, 0x9499B5C7, 0xCD2DD58E, 0xFDAF6629,
    0x2237CD94]))) = some (lanes12 [0x89D5D88D, 0xA963FCBF, 0x1B232D19, 0xFFA5A014, 0x36B18106, 0xAFC7C1FE,
    0xAEE57CBE, 0xA77540BD, 0x2E86E870, 0xFEF5B7C9, 0x8B4FADF2, 0x5E4F4062]) := by decide

/-- Section 3.3. -/
theorem test_permute_inc : lanesOf (exec (.permute) (mk .idle .up .hash sInc)) = some (lanes12 [0xB5AE3376,
    0x60BFCC5D, 0xD7DFA6D4, 0xBF066D50, 0xAE97ACB2, 0xD38A0D97, 0x7B118513, 0x41A775B7, 0x0B54B1B3, 0x6FE93BB5,
    0xAF8F2B3B, 0xB6A376A6]) := by decide

/-- Section 3.3. -/

    theorem test_permute_zero : lanesOf (exec (.permute) (mk .idle .up .hash Lanes.zero)) = some (lanes12 [0x89D5D88D,
    0xA963FCBF, 0x1B232D19, 0xFFA5A014, 0x36B18106, 0xAFC7C1FE, 0xAEE57CBE, 0xA77540BD, 0x2E86E870, 0xFEF5B7C9,
    0x8B4FADF2, 0x5E4F4062]) := by decide

/-- The engine at RND = 11, STEP = 4 of a PERMUTE. -/
def lastTick : State :=
  { mk .hAbs .down .hash Lanes.zero with busy := true, permuting := true, rnd := 11, stp := 4 }

/-- 10_state R24: complete after RND = 11, STEP = 4, no wrap-around. -/
theorem test_engine_completes : ∃ t,
    engineTick lastTick = .next t ∧ t.permuting = false ∧ t.rnd = 0 ∧ t.stp = 0 ∧ engineTick t = .next t := ⟨_,
    rfl, by decide, by decide, by decide, rfl⟩

/-! ### The duplex primitives -/

/-- Section 6, P3, the UP of SQUEEZE_TAG. -/
theorem test_up_keyed : lanesOf (exec (.up 0x40) p3Crypt) = some (lanes12 [0xD88FD612, 0x856F4164, 0x3A4DD73D,
    0xB2FBF11B, 0xC3D38F57, 0xF4AC1C9F, 0x66FC7954, 0x7DFE9F70, 0x40203347, 0x27929DE3, 0x898C9F92,
    0xCB6BBFAF]) := by decide

/-- Section 6, P1, the first UP of SQUEEZE: no code in Hash mode. -/
theorem test_up_hash : lanesOf (exec (.up 0x40) p1Abs) = some (lanes12 [0x2B2F15EA, 0x4EE2BC47, 0x79C466FB,
    0x7BF1ADD4, 0x24540277, 0x0AFC9711, 0xE5606668, 0xC857F4EF, 0xD98F56CA, 0x8533B9D5, 0x0C9AEBC2,
    0x9EB9D34E]) := by decide

/-- 41_duplex_primitives R133, worked example. -/
theorem test_down_hash : lanesOf (exec (.down [] 0x03) p1Init) = some (lanes12 [0x00000001, 0x00000000,
    0x00000000, 0x00000000, 0x00000000, 0x00000000, 0x00000000, 0x00000000, 0x00000000, 0x00000000, 0x00000000,
    0x01000000]) := by decide

/-- 41_duplex_primitives R133, worked example. -/

    theorem test_down_keyed : lanesOf (exec (.down (key ++ nonce ++ [0x10]) 0x02) (mk .idle .up .keyed Lanes.zero)) = some (lanes12 [0x03020100,
    0x07060504, 0x0B0A0908, 0x0F0E0D0C, 0x13121110, 0x17161514, 0x1B1A1918, 0x1F1E1D1C, 0x00000110, 0x00000000,
    0x00000000, 0x02000000]) := by decide

/-- 41_duplex_primitives R134, worked example. -/
theorem test_downOvr : lanesOf (exec (.downOvr [0x11, 0x22] 0x00) (mk .kAd .up .keyed (lanes12 [0x00CCBBAA,
    0x00000000, 0x00000000, 0x00000000, 0x00000000, 0x00000000, 0x00000000, 0x00000000, 0x00000000, 0x00000000,
    0x00000000, 0x00000000]))) = some (lanes12 [0x00CD2211, 0x00000000, 0x00000000, 0x00000000, 0x00000000,
    0x00000000, 0x00000000, 0x00000000, 0x00000000, 0x00000000, 0x00000000, 0x00000000]) := by decide

/-- Section 6, P3, the second chunk of ENCRYPT. -/

    theorem test_downOvr_chunk : lanesOf (exec (.downOvr (pt.drop 16) 0x00) (mk .kAd .up .keyed (lanes12 [0x6CE772E3,
    0x28C47C1C, 0x4CA26A27, 0x7AFD9A7F, 0xF1940EAB, 0xBEE5B0A1, 0xF21D3C03, 0xDE56B56B, 0x21F6C7A8, 0x985BBCEE,
    0x692FFEB9, 0x04AD45E1]))) = some (lanes12 [0x43424140, 0x28C47C1D, 0x4CA26A27, 0x7AFD9A7F, 0xF1940EAB,
    0xBEE5B0A1, 0xF21D3C03, 0xDE56B56B, 0x21F6C7A8, 0x985BBCEE, 0x692FFEB9, 0x04AD45E1]) := by decide

/-! ### The commands (section 6) -/

/-- P1, with a faulted instance before it (60_exceptions R197). -/

    theorem test_initHash : lanesOf (exec .initHash (faulted .modeError p3Crypt)) = some Lanes.zero ∧ statusOf (exec .initHash (faulted .modeError p3Crypt)) = some (0x0001,
    0) := by decide

/-- P3. -/

    theorem test_initKeyed : lanesOf (exec (.initKeyed key nonce) p1Abs) = some p3Init.lanes ∧ statusOf (exec (.initKeyed key nonce) p1Abs) = some (0x001B,
    0) := by decide

/-- Section 2.2. -/

    theorem test_initKeyed_short_nonce : respOf (exec (.initKeyed key (nonce.take 15)) (idleWith [])) = some [0x02] ∧ lanesOf (exec (.initKeyed key (nonce.take 15)) p1Abs) = some p1Abs.lanes := by decide

/-- P2. -/
theorem test_absorb_two_chunks : lanesOf (exec (.absorb (key ++ [0x10])) p1Init) = some (lanes12 [0x3495A78E,
    0xF9DFDD7C, 0xE3EC63BC, 0x4431E20F, 0xA0B0A44C, 0xC870E707, 0xBFB49E05, 0xD925352D, 0x1E86B091, 0x0C324286,
    0xBB1AD3C6, 0xFCCC8177]) ∧ statusOf (exec (.absorb (key ++ [0x10])) p1Init) = some (0x000A, 0) := by decide

/-- P3. -/

    theorem test_absorb_permutes_first : lanesOf (exec (.absorb ad) p3Init) = some p3Abs.lanes ∧ statusOf (exec (.absorb ad) p3Init) = some (0x001C,
    0) := by decide

/-- P1. -/
theorem test_squeeze_32 : respOf (exec (.squeeze 32) p1Abs) = some [0x00, 0xEA, 0x15, 0x2F, 0x2B, 0x47, 0xBC,
    0xE2, 0x4E, 0xFB, 0x66, 0xC4, 0x79, 0xD4, 0xAD, 0xF1, 0x7B, 0xD3, 0x24, 0xD8, 0x06, 0xE8, 0x5F, 0xF7, 0x5E,
    0xE3, 0x69, 0xEE, 0x50, 0xDC, 0x8F, 0x8B, 0xD1] ∧ statusOf (exec (.squeeze 32) p1Abs) = some (0x0006,
    0) := by decide

/-- Section 4.3: one permutation, no payload. -/

    theorem test_squeeze_0 : respOf (exec (.squeeze 0) p1Abs) = some [0x00] ∧ lanesOf (exec (.squeeze 0) p1Abs) = lanesOf (exec (.up 0x40) p1Abs) := by decide

/-- P3. -/

    theorem test_encrypt : respOf (exec (.encrypt pt) p3Abs) = some (0x00 :: ct) ∧ lanesOf (exec (.encrypt pt) p3Abs) = some p3Crypt.lanes := by decide

/-- 60_exceptions R194; CAUSE = 4 in STATUS (10_state R33). -/
theorem test_encrypt_in_hash_mode : statusOf (exec (.encrypt pt) p1Abs) = some (0x012A,
    0) ∧ respOf (exec (.encrypt pt) p1Abs) = some [0x04] := by decide

/-- P4. -/

    theorem test_decrypt : respOf (exec (.decrypt ct) p3Abs) = some (0x00 :: pt) ∧ lanesOf (exec (.decrypt ct) p3Abs) = some p3Crypt.lanes := by decide

/-- 60_exceptions R193. -/

    theorem test_decrypt_out_of_sequence : respOf (exec (.decrypt ct) p3Crypt) = some [0x03] ∧ lanesOf (exec (.decrypt ct) p3Crypt) = some p3Crypt.lanes := by decide

/-- P3. -/

    theorem test_squeezeTag : respOf (exec .squeezeTag p3Crypt) = some (0x00 :: tag) ∧ statusOf (exec .squeezeTag p3Crypt) = some (0x0016,
    0) := by decide

/-- P4. -/
theorem test_verifyTag : respOf (exec (.verifyTag tag) p3Crypt) = some [0x00,
    0x01] ∧ statusOf (exec (.verifyTag tag) p3Crypt) = some (0x0216, 0) := by decide

/-- P5. -/
theorem test_verifyTag_flipped : respOf (exec (.verifyTag [0x13, 0xD6, 0x8F, 0xD8, 0x64, 0x41, 0x6F, 0x85,
    0x3D, 0xD7, 0x4D, 0x3A, 0x1B, 0xF1, 0xFB, 0xB2]) p3Crypt) = some [0x00,
    0x00] ∧ statusOf (exec (.verifyTag [0x13, 0xD6, 0x8F, 0xD8, 0x64, 0x41, 0x6F, 0x85, 0x3D, 0xD7, 0x4D, 0x3A,
    0x1B, 0xF1, 0xFB, 0xB2]) p3Crypt) = some (0x0016, 0x01) := by decide

/-! ### The pseudo-commands (sections 4 and 5) -/

/-- Section 4.1. -/
theorem test_hash_17 : respOf (exec (.hash (key ++ [0x10])) State.reset) = some [0x00, 0x00, 0x00, 0x20, 0x59,
    0x3B, 0x39, 0xBB, 0x6D, 0x59, 0x50, 0x19, 0x33, 0x16, 0x01, 0x24, 0x44, 0x11, 0x32, 0x3F, 0x71, 0x30, 0x85,
    0xBB, 0x1A, 0x30, 0x21, 0x8C, 0x97, 0x2B, 0x96, 0xD9, 0xB7, 0xB7, 0xB3] := by decide

/-- Section 4.3. -/
theorem test_hash_abc : hashResult profileH [0x61, 0x62, 0x63] State.reset = [0x66, 0x1F, 0x71, 0xB3, 0x31,
    0xA0, 0xC1, 0x21, 0x44, 0x41, 0xC4, 0xB4, 0xA8, 0x11, 0x69, 0x7E, 0x91, 0x09, 0xBC, 0x0B, 0x3C, 0x4E, 0x1E,
    0x64, 0x7C, 0x4D, 0x11, 0x27, 0xB1, 0x8E, 0x2A, 0x1E] := by decide

/-- Section 5.1. -/
theorem test_aeadEnc_empty : aeadEncResult profileH key nonce [] [] State.reset = some ([], [0x61, 0x2D, 0x6B,
    0x46, 0xA2, 0xBE, 0x08, 0x21, 0x78, 0x8A, 0x44, 0x28, 0x4B, 0x15, 0xEF, 0x1C]) := by decide

/-- P3. -/
theorem test_aeadEnc : respOf (exec (.aeadEnc key nonce ad pt) State.reset) = some ([0x00, 0x00,
    0x00] ++ ct ++ 0x00 :: tag) := by decide

/-- P4. -/
theorem test_aeadDec_valid : aeadDecResult profileH key nonce tag ad ct State.reset = some (true,
    pt) := by decide

/-- 43_protocol_sequences R182, worked example. -/
theorem test_aeadDec_flipped : aeadDecResult profileH key nonce [0x61, 0x2D, 0x6B, 0x46, 0xA2, 0xBE, 0x08,
    0x21, 0x78, 0x8A, 0x44, 0x28, 0x4B, 0x15, 0xEF, 0x1D] [] [] State.reset = some (false,
    []) ∧ statusOf (exec (.aeadDec key nonce [0x61, 0x2D, 0x6B, 0x46, 0xA2, 0xBE, 0x08, 0x21, 0x78, 0x8A, 0x44,
    0x28, 0x4B, 0x15, 0xEF, 0x1D] [] []) State.reset) = some (0x0016, 0x01) := by decide

/-! ### The other profiles (sections 4.2 and 5.3) -/

/-- Section 4.2. -/
theorem test_lit_hash_17 : hashResult profileLIT (key ++ [0x10]) State.reset = [0x29, 0xB9, 0xEA, 0xA2, 0xF1,
    0x2B, 0xD6, 0x8D, 0xE1, 0x32, 0x40, 0x7C, 0x62, 0x86, 0xCF, 0x57, 0x21, 0x10, 0x40, 0x9E, 0x8A, 0xF0, 0x9E,
    0x70, 0xAD, 0xAB, 0x0F, 0x6A, 0xB4, 0x6A, 0x37, 0xDB] := by decide

/-- Section 6, P3-PUB. -/
theorem test_pub_encrypt : aeadEncResult profilePUB key nonce ad pt State.reset = some ([0xA6, 0xD4, 0x55,
    0xF6, 0xB8, 0x96, 0x8F, 0x04, 0x5B, 0x23, 0x71, 0x65, 0x5F, 0xE7, 0x17, 0x7B, 0x12, 0xB2, 0x59, 0xAB],
    [0x79, 0x86, 0x3B, 0x74, 0x6D, 0xB0, 0xBB, 0xAA, 0x6A, 0x90, 0x12, 0x57, 0x9F, 0x8B, 0x02,
    0x11]) := by decide

/-! ### Witnesses: for every statement with hypotheses, a state and operands that meet them, one per clause -/

/-- `p3Crypt` with VERIFY_TAG's frame on the command stream. -/
def p3Verify : State :=
  { p3Crypt with cmdIn := [0x08, 0x00, 0x00, 0x00, 0x10, 0x00, 0x00, 0x00] ++ tag }

theorem p3Verify_inv : p3Verify.Inv where
  boundary := ⟨rfl, rfl, rfl, rfl, rfl, rfl⟩
  phaseMode := ⟨rfl, rfl⟩
  noCause := by decide
  someCause h := absurd h (by decide)
  accOnlyAfterVerify h := absurd rfl h
  validOnlyAfterVerify h := absurd h (by decide)

theorem p1Abs_inv : p1Abs.Inv where
  boundary := ⟨rfl, rfl, rfl, rfl, rfl, rfl⟩
  phaseMode := ⟨rfl, rfl⟩
  noCause := by decide
  someCause h := absurd h (by decide)
  accOnlyAfterVerify h := absurd rfl h
  validOnlyAfterVerify h := absurd h (by decide)

theorem witness_DecodeOfEncodeIsTheCommand :
    Instr.isCommand (.squeeze 4294967295) = true ∧ Instr.wellFormed (.squeeze 4294967295) = true ∧
    Instr.isCommand (.initKeyed (List.replicate 255 7) (List.replicate 255 9)) = true ∧
    Instr.wellFormed (.initKeyed (List.replicate 255 7) (List.replicate 255 9)) = true := by decide

theorem witness_EncodeOfDecodeIsTheFrame :
    decode ([0x02, 0x01, 0x00, 0x00, 0xAA, 0x03] : ByteString) = .command (.initKeyed [0xAA] []) 5 := by decide

/-- One witness per clause, at the boundary opcodes 0x00, 0x09 and 0xFF for the first. -/
theorem witness_IllegalFramesRaiseIllegalCommand :
    (∃ (s : State) (op b1 b2 b3 : Byte) (rest : ByteString), op = 0 ∧ s.cmdIn = op :: b1 :: b2 :: b3 :: rest) ∧
    (∃ (s : State) (op b1 b2 b3 : Byte) (rest : ByteString), op = 0x09 ∧ 9 ≤ op.toNat ∧
      s.cmdIn = op :: b1 :: b2 :: b3 :: rest) ∧
    (∃ (s : State) (op b1 b2 b3 : Byte) (rest : ByteString), op = 0xFF ∧ 9 ≤ op.toNat ∧
      s.cmdIn = op :: b1 :: b2 :: b3 :: rest) ∧
    (∃ (s : State) (b1 b2 b3 : Byte) (rest : ByteString), ¬ (b1 = 0 ∧ b2 = 0 ∧ b3 = 0) ∧
      s.cmdIn = 0x01 :: b1 :: b2 :: b3 :: rest) ∧
    (∃ (s : State) (b1 b2 b3 : Byte) (rest : ByteString), ¬ (b1 = 0 ∧ b2 = 0 ∧ b3 = 0) ∧
      s.cmdIn = 0x07 :: b1 :: b2 :: b3 :: rest) ∧
    (∃ (s : State) (klen nlen z : Byte) (payload rest : ByteString), z ≠ 0 ∧
      payload.length = klen.toNat + nlen.toNat ∧ s.cmdIn = 0x02 :: klen :: nlen :: z :: (payload ++ rest)) ∧
    (∃ (s : State) (b1 b2 b3 : Byte) (payload rest : ByteString), ¬ (b1 = 0 ∧ b2 = 0 ∧ b3 = 0) ∧
      payload.length < 2 ^ 32 ∧ s.cmdIn = 0x03 :: b1 :: b2 :: b3 :: (leBytes 4 payload.length ++ payload ++ rest)) ∧
    (∃ (s : State) (b1 b2 b3 l0 l1 l2 l3 : Byte) (rest : ByteString), ¬ (b1 = 0 ∧ b2 = 0 ∧ b3 = 0) ∧
      s.cmdIn = 0x04 :: b1 :: b2 :: b3 :: l0 :: l1 :: l2 :: l3 :: rest) :=
  ⟨⟨idleWith [0x00, 0x00, 0x00, 0x00], 0x00, 0x00, 0x00, 0x00, [], by decide⟩,
   ⟨idleWith [0x09, 0x00, 0x00, 0x00, 0x01], 0x09, 0x00, 0x00, 0x00, [0x01], by decide⟩,
   ⟨idleWith [0xFF, 0xFF, 0xFF, 0xFF], 0xFF, 0xFF, 0xFF, 0xFF, [], by decide⟩,
   ⟨idleWith [0x01, 0x01, 0x00, 0x00], 0x01, 0x00, 0x00, [], by decide⟩,
   ⟨idleWith [0x07, 0x00, 0x00, 0x80], 0x00, 0x00, 0x80, [], by decide⟩,
   ⟨idleWith [0x02, 0x01, 0x01, 0x01, 0xAA, 0xBB, 0xCC], 0x01, 0x01, 0x01, [0xAA, 0xBB], [0xCC], by decide⟩,
   ⟨idleWith [0x03, 0x00, 0x01, 0x00, 0x02, 0x00, 0x00, 0x00, 0xAA, 0xBB], 0x00, 0x01, 0x00, [0xAA, 0xBB], [], by decide⟩,
   ⟨idleWith [0x04, 0x00, 0x00, 0x01, 0x05, 0x00, 0x00, 0x00], 0x00, 0x00, 0x01, 0x05, 0x00, 0x00, 0x00, [], by decide⟩⟩

/-- One stream per case of `EndsInsideFrame`, each one byte short: empty, a reserved opcode, formats N and K, a
non-zero zero field, format L inside its header and inside its payload, SQUEEZE; and proper prefixes of a frame. -/
theorem witness_IncompleteFrameWaits :
    EndsInsideFrame (idleWith []).cmdIn ∧ EndsInsideFrame (idleWith [0x09, 0x00, 0x00]).cmdIn ∧
    EndsInsideFrame (idleWith [0x07, 0x00, 0x80]).cmdIn ∧ EndsInsideFrame (idleWith [0x02, 0x01, 0x01]).cmdIn ∧
    EndsInsideFrame (idleWith [0x02, 0x01, 0x01, 0x00, 0xAA]).cmdIn ∧
    EndsInsideFrame (idleWith [0x03, 0x00, 0x01, 0x00, 0x02, 0x00, 0x00]).cmdIn ∧
    EndsInsideFrame (idleWith [0x03, 0x00, 0x01, 0x00, 0x02, 0x00, 0x00, 0x00, 0xAA]).cmdIn ∧
    EndsInsideFrame (idleWith [0x04, 0x00, 0x00, 0x00, 0x20, 0x00, 0x00]).cmdIn ∧
    (∃ (bytes : ByteString) (n : Nat) (s : State), encode .squeezeTag = some bytes ∧ n = 0 ∧ n < bytes.length ∧
      s.cmdIn = bytes.take n) ∧
    (∃ (bytes : ByteString) (n : Nat) (s : State), encode (.absorb [0x61, 0x62, 0x63]) = some bytes ∧ n = 10 ∧
      n < bytes.length ∧ s.cmdIn = bytes.take n) := by
  unfold EndsInsideFrame
  exact ⟨by decide, by decide, by decide, by decide, by decide, by decide, by decide, by decide,
    ⟨[0x07, 0x00, 0x00, 0x00], 0, idleWith [], by decide⟩,
    ⟨[0x03, 0x00, 0x00, 0x00, 0x03, 0x00, 0x00, 0x00, 0x61, 0x62, 0x63], 10,
      idleWith [0x03, 0x00, 0x00, 0x00, 0x03, 0x00, 0x00, 0x00, 0x61, 0x62], by decide⟩⟩

theorem witness_StepRunsTheDecodedCommand : decode p3Verify.cmdIn = .command (.verifyTag tag) 24 := by decide

/-- VERIFY_TAG with the right tag, run from a state that meets the invariant. -/
theorem witness_StepKeepsTheInvariant : ∃ t : State, p3Verify.Inv ∧ step p3Verify = .next t ∧ t.valid = true :=
  ⟨_, p3Verify_inv, rfl, by decide⟩

theorem witness_ResetLeavesTheSpecValues :
    ∃ s t u : State, t = State.reset ∧ s.seq = .kCrypt ∧ u = hostEvent .reset s :=
  ⟨p3Crypt, _, _, rfl, rfl, rfl⟩

theorem witness_EveryCommandAnswersOneResponse : Instr.isCommand (.encrypt pt) = true := rfl

theorem witness_LaterBytesDoNotChangeAStep :
    ∃ t : State, decode p3Verify.cmdIn ≠ .incomplete ∧ step p3Verify = .next t :=
  ⟨_, by decide, rfl⟩

/-- A command in progress; the last tick of a PERMUTE and the first tick after it; and the two ways of not running. -/
theorem witness_SequencerTicksRunThePermutation :
    { p3Crypt with busy := true }.busy = true ∧ (60 : Nat) ≤ 60 ∧ (60 : Nat) ≤ 61 ∧
    p3Crypt.busy = false ∧ { p3Crypt with busy := true }.permuting = false := by decide

/-- The boundary lengths: empty, one full chunk, one byte over. -/
theorem witness_ChunksCutTheString :
    (1 : Nat) ≤ 16 ∧ chunks [] 16 = [[]] ∧
    (key ≠ [] ∧ (chunks key 16)[0]? = some key) ∧
    (key ++ [0x10] ≠ [] ∧ (chunks (key ++ [0x10]) 16)[0]? = some key ∧ (0 + 1 < (chunks (key ++ [0x10]) 16).length) ∧
      (chunks (key ++ [0x10]) 16)[1]? = some [0x10]) := by decide

/-- Both modes, for the two cases of byte 47. -/
theorem witness_UpInjectsAndPermutes : p3Crypt.mode = .keyed ∧ p1Abs.mode = .hash := by decide

/-- The longest and the shortest chunk. -/
theorem witness_DownXorsTheChunk :
    (List.replicate 44 (0x5A : Byte)).length ≤ 44 ∧ ([] : ByteString).length ≤ 44 := by decide

theorem witness_DownOvrOverwritesTheChunk :
    (List.replicate 44 (0x5A : Byte)).length ≤ 44 ∧ ([] : ByteString).length ≤ 44 := by decide

theorem witness_OverlongChunkStops : 44 < (List.replicate 45 (0x5A : Byte)).length := by decide

theorem witness_InitKeyedAbsorbsTheKeyBlock :
    (key.length = 16 ∧ nonce.length = 16) ∧ ¬ (key.length = 16 ∧ (nonce.take 15).length = 16) ∧
    ¬ ((key ++ [0]).length = 16 ∧ nonce.length = 16) := by decide

/-- Each of the four values of SEQ. -/
theorem witness_AbsorbRunsItsMicroOperations :
    (p1Init.err = false ∧ p1Init.seq = .hInit) ∧ (p1Abs.err = false ∧ p1Abs.seq = .hAbs) ∧
    (p3Init.err = false ∧ p3Init.seq = .kInit) ∧ (p3Abs.err = false ∧ p3Abs.seq = .kAd) := by decide

/-- Block 0 of an empty output, and block 1 of the shortest output that has one. -/
theorem witness_SqueezeEmitsItsBlocks :
    p1Abs.err = false ∧ p1Abs.seq = .hAbs ∧ ((0 : Nat) = 0 ∨ 16 * 0 < 0) ∧ ((1 : Nat) = 0 ∨ 16 * 1 < 17) := by decide

theorem witness_SqueezeOutputsExtend :
    ∃ t u : State, p1Abs.err = false ∧ p1Abs.seq = .hAbs ∧ 16 ≤ 17 ∧ exec (.squeeze 16) p1Abs = .next t ∧
      exec (.squeeze 17) p1Abs = .next u :=
  ⟨_, _, rfl, rfl, by decide, rfl, rfl⟩

theorem witness_EncryptRunsItsMicroOperations :
    p3Abs.err = false ∧ p3Abs.seq = .kAd ∧ (chunks pt 16)[0]? = some (pt.take 16) ∧
    (chunks pt 16)[1]? = some (pt.drop 16) ∧ (chunks [] 16)[0]? = some [] := by decide

theorem witness_DecryptFeedsBackThePlaintext :
    p3Abs.err = false ∧ p3Abs.seq = .kAd ∧ (chunks ct 16)[0]? = some (ct.take 16) ∧
    (chunks ct 16)[1]? = some (ct.drop 16) ∧ (chunks [] 16)[0]? = some [] := by decide

theorem witness_SqueezeTagEmitsSixteenBytes : p3Crypt.err = false ∧ p3Crypt.seq = .kCrypt := by decide

theorem witness_VerifyTagComparesAllBytes :
    p3Crypt.err = false ∧ p3Crypt.seq = .kCrypt ∧ tag.length = 16 ∧ (tag.take 15).length ≠ 16 := by decide

/-- The bits 0 and 7 of the bytes 0 and 15. -/
theorem witness_FlippedTagBitIsSeen :
    ∃ t : State, p3Crypt.err = false ∧ p3Crypt.seq = .kCrypt ∧ (0 < 16 ∧ 15 < 16) ∧ (0 < 8 ∧ 7 < 8) ∧
      exec .squeezeTag p3Crypt = .next t ∧ t.respOut = p3Crypt.respOut ++ 0x00 :: tag :=
  ⟨_, rfl, rfl, by decide, by decide, rfl, by decide⟩

theorem witness_DecryptUndoesEncrypt :
    ratesFit profileH ∧ p3Abs.err = false ∧ p3Abs.seq = .kAd ∧
    (encryptCmd profileH pt p3Abs).respOut = p3Abs.respOut ++ 0x00 :: ct := by
  refine ⟨by unfold ratesFit; decide, rfl, rfl, by decide⟩

/-- All three profiles, and the largest and the smallest rates. -/
theorem witness_AeadRoundTrip :
    ratesFit profileH ∧ ratesFit profilePUB ∧ ratesFit profileLIT ∧
    ratesFit { rKabs := 1, rKcrypt := 44, rKout := 16, cdAbsNext := 0xFF, cryptFeedback := .xor } ∧
    key.length = 16 ∧ nonce.length = 16 := by
  unfold ratesFit; decide

theorem witness_AeadEncAnswersCiphertextAndTag : key.length = 16 ∧ nonce.length = 16 := by decide

theorem witness_AeadDecAnswersPlaintextAndValidity :
    key.length = 16 ∧ nonce.length = 16 ∧ tag.length = 16 := by decide

theorem witness_HostChecksLengthsFirst :
    ¬ ((key.take 15).length = 16 ∧ nonce.length = 16) ∧ ¬ (key.length = 16 ∧ (nonce ++ [0]).length = 16) ∧
    ¬ (key.length = 16 ∧ nonce.length = 16 ∧ (tag.take 15).length = 16) := by decide

/-- One witness for each pseudo-command. -/
theorem witness_PseudoCommandsAreTheirFrames :
    (expansion (.hash []) ≠ [] ∧ hostLengthsOk (.hash []) = true ∧
      (expansion (.hash [])).map encode =
        ([[0x01, 0, 0, 0], [0x03, 0, 0, 0, 0, 0, 0, 0], [0x04, 0, 0, 0, 0x20, 0, 0, 0]] : List ByteString).map some ∧
      (idleWith [0x01, 0, 0, 0, 0x03, 0, 0, 0, 0, 0, 0, 0, 0x04, 0, 0, 0, 0x20, 0, 0, 0, 0x99]).cmdIn =
        ([[0x01, 0, 0, 0], [0x03, 0, 0, 0, 0, 0, 0, 0], [0x04, 0, 0, 0, 0x20, 0, 0, 0]] : List ByteString).flatten ++ [0x99]) ∧
    (expansion (.aeadEnc key nonce [] []) ≠ [] ∧ hostLengthsOk (.aeadEnc key nonce [] []) = true ∧
      (expansion (.aeadEnc key nonce [] [])).map encode =
        ([[0x02, 0x10, 0x10, 0] ++ key ++ nonce, [0x03, 0, 0, 0, 0, 0, 0, 0], [0x05, 0, 0, 0, 0, 0, 0, 0],
          [0x07, 0, 0, 0]] : List ByteString).map some) ∧
    (expansion (.aeadDec key nonce tag [] []) ≠ [] ∧ hostLengthsOk (.aeadDec key nonce tag [] []) = true ∧
      (expansion (.aeadDec key nonce tag [] [])).map encode =
        ([[0x02, 0x10, 0x10, 0] ++ key ++ nonce, [0x03, 0, 0, 0, 0, 0, 0, 0], [0x06, 0, 0, 0, 0, 0, 0, 0],
          [0x08, 0, 0, 0, 0x10, 0, 0, 0] ++ tag] : List ByteString).map some) := by decide

/-- One witness for each branch, in the order of the statement; the last two are INIT_KEYED's. -/
theorem witness_CommandsFaultByPriority :
    Instr.command? (.encrypt pt) = some .encrypt ∧ (faulted .modeError p1Abs).err = true ∧
    (p1Abs.err = false ∧ p1Abs.seq ∈ [Seq.hInit, .hAbs]) ∧
    (p3Done.err = false ∧ nextSeq p3Done.seq .encrypt = none ∧ ¬ (p3Done.seq ∈ [Seq.hInit, .hAbs])) ∧
    (Instr.command? (.verifyTag (tag.take 15)) = some .verifyTag ∧ argumentsOk (.verifyTag (tag.take 15)) = false ∧
      p3Crypt.err = false ∧ nextSeq p3Crypt.seq .verifyTag = some .done) ∧
    (argumentsOk (.encrypt pt) = true ∧ p3Abs.err = false ∧ nextSeq p3Abs.seq .encrypt = some .kCrypt) ∧
    (Instr.command? (.initKeyed key nonce) = some .initKeyed ∧ argumentsOk (.initKeyed key nonce) = true) ∧
    argumentsOk (.initKeyed key []) = false := by decide

/-- Both sources of the fault, and a run without it. -/
theorem witness_InvalidArgumentCases :
    ∃ t u v : State, exec (.initKeyed (key.take 15) nonce) p1Abs = .next t ∧ t.respOut = p1Abs.respOut ++ [0x02] ∧
      exec (.verifyTag (tag ++ [0])) p3Crypt = .next u ∧ u.respOut = p3Crypt.respOut ++ [0x02] ∧
      exec (.verifyTag tag) p3Crypt = .next v ∧ v.respOut ≠ p3Crypt.respOut ++ [0x02] :=
  ⟨_, _, _, rfl, by decide, rfl, by decide, rfl, by decide⟩

/-- One witness for each case of the rule, each with a command of the case. -/
theorem witness_SequenceErrorCases :
    (Instr.command? (.absorb ad) = some .absorb ∧ (faulted .modeError p1Abs).err = true) ∧
    ((idleWith []).seq = .idle ∧ p3Done.seq = .done) ∧
    (Instr.command? (.squeeze 32) = some .squeeze ∧ p1Init.seq = .hInit) ∧
    (Instr.command? (.verifyTag tag) = some .verifyTag ∧ p3Init.seq = .kInit) ∧
    (Instr.command? .squeezeTag = some .squeezeTag ∧ p3Abs.seq = .kAd) ∧
    (Instr.command? (.decrypt ct) = some .decrypt ∧ p3Crypt.seq = .kCrypt) := by decide

theorem witness_ModeErrorCases :
    (Instr.command? .squeezeTag = some .squeezeTag ∧ p1Init.err = false ∧ p1Init.seq ∈ [Seq.hInit, .hAbs]) ∧
    (Instr.command? (.squeeze 0) = some .squeeze ∧ p3Crypt.err = false ∧ p3Crypt.seq ∈ [Seq.kInit, .kAd, .kCrypt]) ∧
    (Instr.command? (.encrypt []) = some .encrypt ∧ p3Done.err = false ∧ p3Done.seq ∈ [Seq.idle, .done] ∧
      (idleWith []).err = false ∧ (idleWith []).seq ∈ [Seq.idle, .done]) := by decide

/-- Each branch: INIT_HASH, a legal INIT_KEYED, an illegal one, another command. -/
theorem witness_FaultRecordIsSticky :
    (faulted .modeError p1Abs).err = true ∧ Instr.command? .initHash = some .initHash ∧
    (Instr.command? (.initKeyed key nonce) = some .initKeyed ∧ argumentsOk (.initKeyed key nonce) = true) ∧
    (Instr.command? (.initKeyed [] nonce) = some .initKeyed ∧ argumentsOk (.initKeyed [] nonce) = false) ∧
    Instr.command? (.absorb ad) = some .absorb := by decide

theorem witness_SequenceFollowsTheTable :
    p1Abs.Inv ∧ Instr.command? (.squeeze 32) = some .squeeze ∧ argumentsOk (.squeeze 32) = true ∧ p1Abs.err = false ∧
    nextSeq p1Abs.seq .squeeze = some .done ∧ nextSeq p1Abs.seq .encrypt = none ∧ p3Verify.Inv ∧
    Instr.command? (.verifyTag []) = some .verifyTag ∧ argumentsOk (.verifyTag []) = false :=
  ⟨p1Abs_inv, by decide, by decide, by decide, by decide, by decide, p3Verify_inv, by decide, by decide⟩

theorem witness_PhaseAfterEachCommand :
    ∃ t u : State, exec (.encrypt pt) p3Abs = .next t ∧ t.err = false ∧ exec .squeezeTag p3Crypt = .next u ∧
      u.err = false :=
  ⟨_, _, rfl, by decide, rfl, by decide⟩

/-- ABSORB in both phases, and one command of every other case. -/
theorem witness_PermutationsPerCommand :
    ∃ t u v w x : State, exec (.absorb ad) p1Init = .next t ∧ t.err = false ∧ p1Init.phase = .up ∧
      exec (.absorb ad) p3Init = .next u ∧ u.err = false ∧ p3Init.phase = .down ∧
      exec (.squeeze 0) p1Abs = .next v ∧ v.err = false ∧ exec (.decrypt ct) p3Abs = .next w ∧ w.err = false ∧
      exec (.verifyTag tag) p3Crypt = .next x ∧ x.err = false :=
  ⟨_, _, _, _, _, rfl, by decide, rfl, rfl, by decide, rfl, rfl, by decide, rfl, by decide, rfl, by decide⟩

/-- Two runs of DECRYPT on different data and different states. -/
theorem witness_ControlIsPublic :
    ∃ s' t t' : State, s' = { p3Abs with lanes := Lanes.zero, acc := 0x5A } ∧ Instr.isCommand (.decrypt ct) = true ∧
      Instr.shape (.decrypt ct) = Instr.shape (.decrypt pt) ∧ ct ≠ pt ∧ p3Abs.lanes ≠ s'.lanes ∧
      p3Abs.control = s'.control ∧ p3Abs.trace = s'.trace ∧ p3Abs.respOut.length = s'.respOut.length ∧
      exec (.decrypt ct) p3Abs = .next t ∧ exec (.decrypt pt) s' = .next t' :=
  ⟨_, _, _, rfl, by decide, by decide, by decide, by decide, by decide, by decide, by decide, rfl, rfl⟩

theorem witness_InstancesShareNothing : ([p1Abs, p3Verify] : List State)[1]? = some p3Verify := rfl

/-- Both Hash phases, the longest chunk and associated data on which the profiles agree, and two ABSORBs of 16 bytes. -/
theorem witness_HAndPubHashAlikeLitShortAllEncryptEmptyAlike :
    p1Init.mode = .hash ∧ p1Abs.mode = .hash ∧ key.length ≤ 16 ∧ (∀ m ∈ [key, nonce], m.length ≤ 16) ∧
    ([] : ByteString).length ≤ 16 := by decide

end Sys2Proof.Tests
end

section
/-! PROOFS of 10_state R27 and R32: how a command ends, said once (it completes its body or raises a fault), and
from that where SEQ and PHASE stand after it. -/

namespace Sys2Proof.Machine

/-! ### When a command is accepted -/

/-- The condition of 10_state R32 under which the command `i`, of kind `k`, is accepted: ERR = 0 (or an INIT), legal
operand lengths (60_exceptions R192), and a row of the table for the current SEQ. -/
abbrev CommandAccepted (i : Instr) (k : CmdKind) (s : State) : Prop :=
  (s.err = false ∨ k = .initHash ∨ k = .initKeyed) ∧ argumentsOk i = true ∧ nextSeq s.seq k ≠ none

/-- The two checks of the prologue and the table of R32 list the same commands. -/
theorem permitted_and_not_wrongMode_iff_nextSeq {k : CmdKind} (hHash : k ≠ .initHash) (hKeyed : k ≠ .initKeyed)
    (q : Seq) : wrongMode q k = false ∧ permitted q k = true ↔ nextSeq q k ≠ none := by
  cases k
  case initHash => exact absurd rfl hHash
  case initKeyed => exact absurd rfl hKeyed
  all_goals cases q <;> decide

theorem prologueFault_eq_none_iff_nextSeq {k : CmdKind} (hHash : k ≠ .initHash) (hKeyed : k ≠ .initKeyed)
    (s : State) : prologueFault k s = none ↔ s.err = false ∧ nextSeq s.seq k ≠ none := by
  rw [prologueFault_eq_none_iff, permitted_and_not_wrongMode_iff_nextSeq hHash hKeyed]

/-- For a command other than the two INITs, acceptance is the prologue's and the length check's. -/
theorem commandAccepted_iff_prologue {i : Instr} {k : CmdKind} (hHash : k ≠ .initHash) (hKeyed : k ≠ .initKeyed)
    (s : State) : CommandAccepted i k s ↔ argumentsOk i = true ∧ prologueFault k s = none := by
  rw [prologueFault_eq_none_iff_nextSeq hHash hKeyed]
  simp only [CommandAccepted, hHash, hKeyed, or_false]
  exact and_left_comm

theorem commandAccepted_initHash (s : State) : CommandAccepted .initHash .initHash s := by
  simp [CommandAccepted, argumentsOk, nextSeq]

theorem commandAccepted_initKeyed_iff (key nonce : ByteString) (s : State) :
    CommandAccepted (.initKeyed key nonce) .initKeyed s ↔ key.length = keyLen ∧ nonce.length = nonceLen := by
  simp [CommandAccepted, argumentsOk, nextSeq, keyLen, nonceLen]

theorem argumentsOk_verifyTag_iff (t : ByteString) : argumentsOk (.verifyTag t) = true ↔ t.length = tagLen := by
  simp [argumentsOk, tagLen]

/-! ### How a command ends -/

/-- The body that a command of this hardware runs once its checks have passed (42_duplex_commands R150 to R158). -/
def commandBody : Instr → State → State
  | .initHash => initHashBody
  | .initKeyed key nonce => initKeyedBody key nonce
  | .absorb x => absorbBody hardware x
  | .squeeze l => squeezeBody hardware l
  | .encrypt x => encryptBody hardware x
  | .decrypt x => decryptBody hardware x
  | .squeezeTag => squeezeTagBody
  | .verifyTag t => verifyTagBody t
  | _ => id

/-- What VERIFY_TAG does once its prologue has passed: its length check decides (42_duplex_commands R158). -/
theorem verifyTagCmd_of_prologue {s : State} (h : prologueFault .verifyTag s = none) (t : ByteString) :
    verifyTagCmd t s =
      if t.length = tagLen then complete (verifyTagBody t) s else raise .invalidArgument s :=
  guarded_ok s _ h

/-- An accepted command completes its body. -/
theorem exec_of_commandAccepted {i : Instr} {k : CmdKind} {s : State} (hk : i.command? = some k)
    (h : CommandAccepted i k s) : exec i s = .next (complete (commandBody i) s) := by
  cases i <;> cases hk
  case initHash => rfl
  case initKeyed key nonce =>
    exact congrArg Host.Outcome.next (if_pos ((commandAccepted_initKeyed_iff key nonce s).1 h))
  case verifyTag t =>
    obtain ⟨hargs, hpro⟩ := (commandAccepted_iff_prologue (by decide) (by decide) s).1 h
    have hlen := (argumentsOk_verifyTag_iff t).1 hargs
    exact congrArg Host.Outcome.next ((verifyTagCmd_of_prologue hpro t).trans (if_pos hlen))
  all_goals
    obtain ⟨-, hpro⟩ := (commandAccepted_iff_prologue (by decide) (by decide) s).1 h
    exact congrArg Host.Outcome.next (guarded_ok s _ hpro)

/-- A guarded command whose prologue does not pass raises a fault. -/
theorem guarded_raises {k : CmdKind} {s : State} (body : State → State) (h : prologueFault k s ≠ none) :
    ∃ f, guarded k body s = raise f s := by
  obtain ⟨f, hf⟩ := Option.ne_none_iff_exists'.1 h
  exact ⟨f, guarded_fault s body hf⟩

/-- A command that is not accepted raises a fault and does nothing else (60_exceptions R195). -/
theorem exec_of_not_commandAccepted {i : Instr} {k : CmdKind} {s : State} (hk : i.command? = some k)
    (h : ¬ CommandAccepted i k s) : ∃ f, exec i s = .next (raise f s) := by
  cases i <;> cases hk
  case initHash => exact absurd (commandAccepted_initHash s) h
  case initKeyed key nonce =>
    have hlens := mt (commandAccepted_initKeyed_iff key nonce s).2 h
    exact ⟨.invalidArgument, congrArg Host.Outcome.next (if_neg hlens)⟩
  case verifyTag t =>
    by_cases hpro : prologueFault .verifyTag s = none
    · have hlen : t.length ≠ tagLen := fun hlen =>
        have hargs := (argumentsOk_verifyTag_iff t).2 hlen
        h ((commandAccepted_iff_prologue (by decide) (by decide) s).2 ⟨hargs, hpro⟩)
      have hraise := (verifyTagCmd_of_prologue hpro t).trans (if_neg hlen)
      exact ⟨.invalidArgument, congrArg Host.Outcome.next hraise⟩
    · obtain ⟨f, hf⟩ := guarded_raises _ hpro
      exact ⟨f, congrArg Host.Outcome.next hf⟩
  all_goals
    have hpro := fun hpro => h ((commandAccepted_iff_prologue (by decide) (by decide) s).2 ⟨rfl, hpro⟩)
    obtain ⟨f, hf⟩ := guarded_raises _ hpro
    exact ⟨f, congrArg Host.Outcome.next hf⟩

/-! ### SEQ and PHASE after a completed body -/

/-- Between commands MODE is the one that SEQ belongs to, so ABSORB, which chooses by MODE, goes where the row of the
current SEQ says. -/
theorem absorb_seq_eq_nextSeq {s : State} (hInv : s.Inv) (hrow : nextSeq s.seq .absorb ≠ none) (p : Profile)
    (x : ByteString) : some (complete (absorbBody p x) s).seq = nextSeq s.seq .absorb := by
  have hfit := hInv.phaseMode
  rw [absorb_seq]
  cases hq : s.seq <;> simp_all [phaseModeFit, nextSeq]

/-- The body of an accepted command goes where the table says (10_state R32). -/
theorem commandBody_seq {i : Instr} {k : CmdKind} {s : State} (hInv : s.Inv) (hk : i.command? = some k)
    (h : CommandAccepted i k s) : some (complete (commandBody i) s).seq = nextSeq s.seq k := by
  have hpro := fun hHash hKeyed => ((commandAccepted_iff_prologue hHash hKeyed s).1 h).2
  obtain ⟨-, -, hrow⟩ := h
  cases i <;> cases hk
  case initHash => simp [commandBody, nextSeq]
  case initKeyed key nonce => simp [commandBody, nextSeq]
  case absorb x => exact absorb_seq_eq_nextSeq hInv hrow hardware x
  case squeeze l => simp [commandBody, nextSeq, ((prologue_squeeze s).1 (hpro nofun nofun)).2]
  case encrypt x => simp [commandBody, nextSeq, ((prologue_encrypt s).1 (hpro nofun nofun)).2]
  case decrypt x => simp [commandBody, nextSeq, ((prologue_decrypt s).1 (hpro nofun nofun)).2]
  case squeezeTag => simp [commandBody, nextSeq, ((prologue_squeezeTag s).1 (hpro nofun nofun)).2]
  case verifyTag t => simp [commandBody, nextSeq, ((prologue_verifyTag s).1 (hpro nofun nofun)).2]

/-- An accepted command leaves ERR = 0: the INITs clear it, the others run only while it is 0. -/
theorem commandBody_err {i : Instr} {k : CmdKind} {s : State} (hk : i.command? = some k)
    (h : CommandAccepted i k s) : (complete (commandBody i) s).err = false := by
  obtain ⟨herr, -, -⟩ := h
  cases i <;> cases hk
  case initHash => exact initHash_err s
  case initKeyed key nonce => exact initKeyed_err s key nonce
  all_goals simpa [commandBody] using herr

/-- PHASE after the body of each command (10_state R27). -/
theorem commandBody_phase {i : Instr} {k : CmdKind} (hk : i.command? = some k) (s : State) :
    (complete (commandBody i) s).phase =
      if k ∈ [CmdKind.initKeyed, .absorb, .encrypt, .decrypt] then .down else .up := by
  cases i <;> cases hk
  case initHash => exact initHash_phase s
  case initKeyed key nonce => exact initKeyed_phase s key nonce
  case absorb x => exact absorb_phase s (by simp)
  case squeeze l => exact squeeze_phase s hardware l
  case encrypt x => exact encrypt_phase s (by decide)
  case decrypt x => exact decrypt_phase s (by decide)
  case squeezeTag => exact squeezeTag_phase s
  case verifyTag t => exact verifyTag_phase s t

/-! ### The obligations -/

/-- Settles O52: an accepted command completes its body, any other raises a fault, which keeps SEQ. -/
theorem sequenceFollowsTheTable : Obligations.SequenceFollowsTheTable := by
  intro i k s hInv hk
  by_cases h : CommandAccepted i k s
  · refine ⟨_, exec_of_commandAccepted hk h, ?_⟩
    rw [if_pos h]
    exact ⟨commandBody_seq hInv hk h, commandBody_err hk h⟩
  · obtain ⟨f, hf⟩ := exec_of_not_commandAccepted hk h
    refine ⟨_, hf, ?_⟩
    rw [if_neg h]
    exact ⟨raise_seq s f, raise_err s f⟩

/-- Settles O53: a command that leaves ERR = 0 raised no fault, so it completed its body. -/
theorem phaseAfterEachCommand : Obligations.PhaseAfterEachCommand := by
  intro i k s t hk hexec herr
  by_cases h : CommandAccepted i k s
  · obtain rfl : complete (commandBody i) s = t :=
      Host.Outcome.next.inj ((exec_of_commandAccepted hk h).symm.trans hexec)
    exact commandBody_phase hk s
  · obtain ⟨f, hf⟩ := exec_of_not_commandAccepted hk h
    obtain rfl : raise f s = t := Host.Outcome.next.inj (hf.symm.trans hexec)
    simp at herr

end Sys2Proof.Machine
end

section
/-! PROOFS of 20_memory R50: the byte view of the lanes read both ways, from a lane to its four state bytes and back. -/

namespace Sys2Proof.Machine

/-! ### From a lane to its bytes -/

/-- `A[y][x]` is lane register `L_i` with `i = x + 4y` (10_state R20). -/
theorem Lanes.reg_eq_lane (a : Lanes) (y : Fin 3) (x : Fin 4) : a.reg (4 * y.val + x.val) = a.lane y x := by
  fin_cases y <;> fin_cases x <;> rfl

theorem Lanes.byte_eq_laneByte_lane (a : Lanes) (y : Fin 3) (x : Fin 4) {b : Nat} (hb : b < 4) :
    a.byte (16 * y.val + 4 * x.val + b) = laneByte (a.lane y x) b := by
  have hreg : (16 * y.val + 4 * x.val + b) / 4 = 4 * y.val + x.val := by omega
  have hpos : (16 * y.val + 4 * x.val + b) % 4 = b := by omega
  rw [Lanes.byte, hreg, hpos, Lanes.reg_eq_lane]

/-! ### From the bytes to the lane -/

/-- Byte `k` put back at its place in the lane holds the bits whose number lies in that byte, and no others. -/
theorem getLsbD_setWidth_laneByte_shiftLeft (v : Lane) (k : Nat) {n : Nat} (hn : n < 32) :
    ((laneByte v k).setWidth 32 <<< (8 * k)).getLsbD n = (decide (n / 8 = k) && v.getLsbD n) := by
  rw [BitVec.getLsbD_shiftLeft, BitVec.getLsbD_setWidth, getLsbD_laneByte]
  by_cases hk : n / 8 = k
  · have hlow : 8 * k ≤ n := by omega
    have hbit : n - 8 * k < 8 := by omega
    have hlane : n - 8 * k < 32 := by omega
    simp [hk, hn, hbit, hlane, Nat.not_lt.mpr hlow, Nat.add_sub_cancel' hlow]
  · have hout : n < 8 * k ∨ ¬ n - 8 * k < 8 := by omega
    rcases hout with hbelow | habove
    · simp [hk, hbelow]
    · simp [hk, habove]

/-- Every bit of a lane lies in exactly one of its four bytes. -/
theorem lane_eq_or_laneBytes (v : Lane) :
    v = (laneByte v 0).setWidth 32 ||| (laneByte v 1).setWidth 32 <<< 8 |||
      (laneByte v 2).setWidth 32 <<< 16 ||| (laneByte v 3).setWidth 32 <<< 24 := by
  apply BitVec.eq_of_getLsbD_eq
  intro n hn
  have h0 := getLsbD_setWidth_laneByte_shiftLeft v 0 hn
  have h1 := getLsbD_setWidth_laneByte_shiftLeft v 1 hn
  have h2 := getLsbD_setWidth_laneByte_shiftLeft v 2 hn
  have h3 := getLsbD_setWidth_laneByte_shiftLeft v 3 hn
  rw [Nat.mul_zero, BitVec.shiftLeft_zero] at h0
  rw [BitVec.getLsbD_or, BitVec.getLsbD_or, BitVec.getLsbD_or, h0, h1, h2, h3]
  have hbyte : n / 8 = 0 ∨ n / 8 = 1 ∨ n / 8 = 2 ∨ n / 8 = 3 := by omega
  rcases hbyte with h | h | h | h <;> simp [h]

/-! ### The obligation -/

/-- Settles O23: each state byte is a byte of its lane, and a lane is its four bytes put together. -/
theorem byteViewIsLittleEndian : Obligations.ByteViewIsLittleEndian := by
  intro s y x
  have hbyte : ∀ b < 4, s.byte (16 * y.val + 4 * x.val + b) = laneByte (s.lanes.lane y x) b :=
    fun b hb => s.lanes.byte_eq_laneByte_lane y x hb
  constructor
  · intro b
    exact hbyte b.val b.isLt
  · have hbyte0 : s.byte (16 * y.val + 4 * x.val) = laneByte (s.lanes.lane y x) 0 := hbyte 0 (by decide)
    rw [hbyte0, hbyte 1 (by decide), hbyte 2 (by decide), hbyte 3 (by decide)]
    exact lane_eq_or_laneBytes (s.lanes.lane y x)

end Sys2Proof.Machine
end

section
/-! PROOFS of 40_permutation_engine R111 to R116: the five steps lane by lane, and the round that chains them. -/

namespace Sys2Proof.Machine

/-! ### A step or a round of the engine completes and writes the lanes only -/

theorem exec_theta (s : State) : exec .theta s = .next (s.putLanes (theta s.lanes)) := rfl

theorem exec_rhoWest (s : State) : exec .rhoWest s = .next (s.putLanes (rhoWest s.lanes)) := rfl

theorem exec_iota (r : Fin 12) (s : State) : exec (.iota r) s = .next (s.putLanes (iota r s.lanes)) := rfl

theorem exec_chi (s : State) : exec .chi s = .next (s.putLanes (chi s.lanes)) := rfl

theorem exec_rhoEast (s : State) : exec .rhoEast s = .next (s.putLanes (rhoEast s.lanes)) := rfl

theorem exec_round (r : Fin 12) (s : State) : exec (.round r) s = .next (s.putLanes (round r s.lanes)) := rfl

/-! ### The steps lane by lane; `Laws/Engine.lean` has `lane_theta` and `lane_chi` -/

theorem lane_columnParity (a : Lanes) (x : Fin 4) :
    (columnParity a).lane x = a.lane 0 x ^^^ a.lane 1 x ^^^ a.lane 2 x :=
  Plane.lane_ofLanes _ x

theorem lane_thetaEffect (p : Plane) (x : Fin 4) :
    (thetaEffect p).lane x = (p.lane (x - 1)).rotateLeft 5 ^^^ (p.lane (x - 1)).rotateLeft 14 := by
  rw [thetaEffect, Plane.lane_ofLanes, rotl32_eq_rotateLeft _ (by decide), rotl32_eq_rotateLeft _ (by decide)]

theorem lane_zero_rhoWest (a : Lanes) (x : Fin 4) : (rhoWest a).lane 0 x = a.lane 0 x := rfl

theorem lane_one_rhoWest (a : Lanes) (x : Fin 4) : (rhoWest a).lane 1 x = a.lane 1 (x - 1) :=
  Plane.lane_ofLanes _ x

theorem lane_two_rhoWest (a : Lanes) (x : Fin 4) : (rhoWest a).lane 2 x = (a.lane 2 x).rotateLeft 11 :=
  (Plane.lane_ofLanes _ x).trans (rotl32_eq_rotateLeft _ (by decide))

theorem lane_zero_zero_iota (r : Fin 12) (a : Lanes) :
    (iota r a).lane 0 0 = a.lane 0 0 ^^^ roundConstant r := rfl

theorem lane_iota_of_ne (r : Fin 12) (a : Lanes) {y : Fin 3} {x : Fin 4} (h : ¬ (y = 0 ∧ x = 0)) :
    (iota r a).lane y x = a.lane y x := by
  match y, x with
  | 0, 0 => exact absurd ⟨rfl, rfl⟩ h
  | 0, 1 => rfl
  | 0, 2 => rfl
  | 0, 3 => rfl
  | 1, _ => rfl
  | 2, _ => rfl

/-- The constants of the model are the table of R113. -/
theorem roundConstant_eq_getD : ∀ r : Fin 12, roundConstant r =
    ([0x058, 0x038, 0x3C0, 0x0D0, 0x120, 0x014, 0x060, 0x02C, 0x380, 0x0F0, 0x1A0, 0x012] : List Lane).getD r 0 := by
  decide

theorem lane_zero_rhoEast (a : Lanes) (x : Fin 4) : (rhoEast a).lane 0 x = a.lane 0 x := rfl

theorem lane_one_rhoEast (a : Lanes) (x : Fin 4) : (rhoEast a).lane 1 x = (a.lane 1 x).rotateLeft 1 :=
  (Plane.lane_ofLanes _ x).trans (rotl32_eq_rotateLeft _ (by decide))

theorem lane_two_rhoEast (a : Lanes) (x : Fin 4) : (rhoEast a).lane 2 x = (a.lane 2 (x - 2)).rotateLeft 8 :=
  (Plane.lane_ofLanes _ x).trans (rotl32_eq_rotateLeft _ (by decide))

/-! ### The obligations -/

/-- Settles O14: the effect plane, written out as the rotated parity of the column to the left, enters every lane. -/
theorem thetaXorsTheColumnParity : Obligations.ThetaXorsTheColumnParity := by
  intro s
  refine ⟨_, exec_theta s, rfl, fun y x => ?_⟩
  rw [State.putLanes_lanes, lane_theta, lane_thetaEffect, lane_columnParity]

/-- Settles O15, plane by plane. -/
theorem rhoWestMovesThePlanes : Obligations.RhoWestMovesThePlanes := by
  intro s
  exact ⟨_, exec_rhoWest s, rfl, fun x =>
    ⟨lane_zero_rhoWest s.lanes x, lane_one_rhoWest s.lanes x, lane_two_rhoWest s.lanes x⟩⟩

/-- Settles O16: lane `A[0][0]` takes the constant of the table, every other lane stays. -/
theorem iotaAddsTheRoundConstant : Obligations.IotaAddsTheRoundConstant := by
  intro r s
  refine ⟨_, exec_iota r s, rfl, ?changed, fun y x hne => lane_iota_of_ne r s.lanes hne⟩
  case changed => rw [State.putLanes_lanes, lane_zero_zero_iota, roundConstant_eq_getD]

/-- Settles O17: `lane_chi` at each plane, its plane indices reduced modulo 3. -/
theorem chiMixesThePlanes : Obligations.ChiMixesThePlanes := by
  intro s
  exact ⟨_, exec_chi s, rfl, fun x =>
    ⟨lane_chi s.lanes 0 x, lane_chi s.lanes 1 x, lane_chi s.lanes 2 x⟩⟩

/-- Settles O18, plane by plane. -/
theorem rhoEastMovesThePlanes : Obligations.RhoEastMovesThePlanes := by
  intro s
  exact ⟨_, exec_rhoEast s, rfl, fun x =>
    ⟨lane_zero_rhoEast s.lanes x, lane_one_rhoEast s.lanes x, lane_two_rhoEast s.lanes x⟩⟩

/-- Settles O19: each step completes, so the five run one after another and compose to the round. -/
theorem roundIsItsFiveSteps : Obligations.RoundIsItsFiveSteps := by
  intro r s
  refine ⟨_, exec_round r s, rfl, ?_⟩
  rw [execAll_cons_next (exec_theta _), execAll_cons_next (exec_rhoWest _), execAll_cons_next (exec_iota r _),
    execAll_cons_next (exec_chi _), execAll_cons_next (exec_rhoEast _)]
  rfl

end Sys2Proof.Machine
end

section
/-! PROOFS of 41_duplex_primitives R130: how many chunks CHUNKS makes, what each holds, how long it is, and that
together they are the string. -/

namespace Sys2Proof.Machine

/-! ### How many chunks -/

/-- The chunk counter stays below `ceil(n / r)` exactly while its chunk starts inside the string. -/
theorem lt_ceilDiv_iff {r : Nat} (hr : 0 < r) (j n : Nat) : j < ceilDiv n r ↔ j * r < n := by
  rw [ceilDiv, Nat.lt_iff_add_one_le, Nat.le_div_iff_mul_le hr, Nat.add_one_mul]
  omega

theorem chunks_of_ne_nil {x : ByteString} (hx : x ≠ []) (r : Nat) :
    chunks x r = (List.range (ceilDiv x.length r)).map (chunkAt x r) := by
  cases x with
  | nil => exact absurd rfl hx
  | cons b bs => rfl

theorem length_chunks {x : ByteString} (hx : x ≠ []) (r : Nat) : (chunks x r).length = ceilDiv x.length r := by
  rw [chunks_of_ne_nil hx, List.length_map, List.length_range]

/-- The chunks of a non-empty string are `chunkAt` at the places where one starts. -/
theorem getElem?_chunks_eq_some_iff {x c : ByteString} {r : Nat} (hx : x ≠ []) (hr : 0 < r) (j : Nat) :
    (chunks x r)[j]? = some c ↔ j * r < x.length ∧ chunkAt x r j = c := by
  rw [chunks_of_ne_nil hx, List.getElem?_eq_some_iff]
  simp [lt_ceilDiv_iff hr]

/-! ### What a chunk holds -/

/-- `chunkAt` is the slice as R130 writes it, from `j * r` to the end of the chunk or of the string. -/
theorem chunkAt_eq_drop_take (x : ByteString) (r j : Nat) :
    chunkAt x r j = (x.take (min ((j + 1) * r) x.length)).drop (j * r) := by
  rw [chunkAt, List.take_drop, ← List.take_eq_take_min, Nat.add_one_mul]

theorem length_chunkAt (x : ByteString) (r j : Nat) : (chunkAt x r j).length = min r (x.length - j * r) := by
  rw [chunkAt, List.length_take, List.length_drop]

/-- Cutting loses nothing and adds nothing. -/
theorem flatten_chunks (x : ByteString) {r : Nat} (hr : 0 < r) : (chunks x r).flatten = x := by
  refine chunks_induction (P := fun x cs => cs.flatten = x) hr (fun x _ => ?last) (fun x y _ _ ih => ?more) x
  case last => exact List.flatten_singleton
  case more => rw [List.flatten_cons, ih]

/-! ### The obligation -/

/-- Settles O24: the chunk at `j` is `chunkAt x r j`, and its length follows from where it starts; that it is full
unless it is the last one, from where the next one starts. -/
theorem chunksCutTheString : Obligations.ChunksCutTheString := by
  intro x r hr
  refine ⟨flatten_chunks x hr, fun hx => hx ▸ chunks_nil r, fun hx => ⟨length_chunks hx r, fun j c hc => ?_⟩⟩
  obtain ⟨hstart, rfl⟩ := (getElem?_chunks_eq_some_iff hx hr j).1 hc
  refine ⟨chunkAt_eq_drop_take x r j, ?_⟩
  rw [length_chunks hx, lt_ceilDiv_iff hr, Nat.add_one_mul, length_chunkAt]
  omega

end Sys2Proof.Machine
end

section
/-! PROOFS of 42_duplex_commands R160: DECRYPT of what ENCRYPT answered runs as that ENCRYPT did but for its answer,
VERIFY_TAG accepts the tag of the state it stands in, and no AEAD sequence depends on the state before it. -/

namespace Sys2Proof.Machine

/-! ### One chunk -/

/-- `s` with the bytes `v` as its whole response stream. -/
def State.withResp (v : ByteString) (s : State) : State := { s with respOut := v }

@[simp] theorem State.withResp_respOut (v : ByteString) (s : State) : (s.withResp v).respOut = v := rfl
@[simp] theorem State.withResp_lanes (v : ByteString) (s : State) : (s.withResp v).lanes = s.lanes := rfl
@[simp] theorem State.withResp_seq (v : ByteString) (s : State) : (s.withResp v).seq = s.seq := rfl
@[simp] theorem State.withResp_err (v : ByteString) (s : State) : (s.withResp v).err = s.err := rfl

/-- The output chunk of ENCRYPT's handling of `x` in `s` (42_duplex_commands R155). -/
def encryptedChunk (x : ByteString) (s : State) : ByteString := xorBytes x (lead x.length (up (cuCrypt s.chk) s))

@[simp] theorem length_encryptedChunk (x : ByteString) (s : State) : (encryptedChunk x s).length = x.length := by
  simp [encryptedChunk]

theorem encryptChunk_respOut (p : Profile) (x : ByteString) (s : State) :
    (cryptChunk p .encrypt (s.load x)).nextChunk.respOut = s.respOut ++ encryptedChunk x s :=
  cryptChunk_respOut (s.load x) p .encrypt

/-- FEEDBACK looks neither at the staging buffer nor at the response stream, and leaves both as they are. -/
theorem feedBack_load_withResp (p : Profile) (x c v : ByteString) (s : State) :
    feedBack p x ((s.load c).withResp v) = ((feedBack p x s).load c).withResp v := by
  unfold feedBack
  split <;> rfl

theorem decryptChunk_eq_feedBack (p : Profile) {x c : ByteString} (v : ByteString) {s : State}
    (hx : xorBytes c (lead c.length (up (cuCrypt s.chk) s)) = x) :
    cryptChunk p .decrypt ((s.withResp v).load c) =
      feedBack p x ((((up (cuCrypt s.chk) s).note (.lead c.length)).load c).withResp (v ++ x)) := by
  subst hx
  rfl

theorem encryptChunk_eq_feedBack (p : Profile) (x : ByteString) (s : State) :
    cryptChunk p .encrypt (s.load x) =
      feedBack p x
        ((((up (cuCrypt s.chk) s).note (.lead x.length)).load x).withResp (s.respOut ++ encryptedChunk x s)) :=
  rfl

/-- Both directions start with the same UP, so the keystream cancels and both feed back the plaintext chunk: the states
after them differ in the response alone. -/
theorem decryptChunk_encryptedChunk (p : Profile) (x v : ByteString) (s : State) :
    (cryptChunk p .decrypt ((s.withResp v).load (encryptedChunk x s))).nextChunk =
      ((cryptChunk p .encrypt (s.load x)).nextChunk).withResp (v ++ x) := by
  have hcancel : xorBytes (encryptedChunk x s) (lead (encryptedChunk x s).length (up (cuCrypt s.chk) s)) = x := by
    rw [length_encryptedChunk]
    exact xorBytes_cancel x _ (length_lead _ _).symm
  rw [decryptChunk_eq_feedBack p v hcancel, encryptChunk_eq_feedBack, length_encryptedChunk, feedBack_load_withResp,
    feedBack_load_withResp]
  rfl

/-! ### The loop over the chunks -/

theorem chunks_of_length_le {x : ByteString} {r : Nat} (h : x.length ≤ r) : chunks x r = [x] := by
  by_cases hx : x = []
  · rw [hx, chunks_nil]
  · exact chunks_of_le hx h

/-- ENCRYPT's loop over `cs`, the chunks of `x`, answers a string of the same length on whose chunks DECRYPT's loop does
the same, from the same state with any response stream `v`, but answers `x`. -/
def CryptLoopInverts (p : Profile) (x : ByteString) (cs : List ByteString) : Prop :=
  ∀ s : State, ∃ out : ByteString, out.length = x.length ∧
    (eachChunk (cryptChunk p .encrypt) cs s).respOut = s.respOut ++ out ∧
    ∀ v, eachChunk (cryptChunk p .decrypt) (chunks out p.rKcrypt) (s.withResp v) =
      (eachChunk (cryptChunk p .encrypt) cs s).withResp (v ++ x)

theorem cryptLoopInverts_singleton {p : Profile} {x : ByteString} (hx : x.length ≤ p.rKcrypt) :
    CryptLoopInverts p x [x] := by
  intro s
  refine ⟨encryptedChunk x s, length_encryptedChunk x s, encryptChunk_respOut p x s, fun v => ?_⟩
  rw [chunks_of_length_le (by simpa using hx)]
  exact decryptChunk_encryptedChunk p x v s

theorem cryptLoopInverts_cons {p : Profile} (hr : 0 < p.rKcrypt) {x y : ByteString} {cs : List ByteString}
    (hx : x.length = p.rKcrypt) (hy : y ≠ []) (ih : CryptLoopInverts p y cs) :
    CryptLoopInverts p (x ++ y) (x :: cs) := by
  intro s
  obtain ⟨out, hlen, hresp, hdec⟩ := ih (cryptChunk p .encrypt (s.load x)).nextChunk
  have hout : out ≠ [] := List.ne_nil_of_length_pos (hlen ▸ List.length_pos_of_ne_nil hy)
  refine ⟨encryptedChunk x s ++ out, by simp [hlen], ?_, fun v => ?_⟩
  · rw [eachChunk, hresp, encryptChunk_respOut, List.append_assoc]
  · rw [chunks_append hr (by simpa using hx) hout, eachChunk, decryptChunk_encryptedChunk, hdec, List.append_assoc]
    rfl

theorem cryptLoopInverts_chunks {p : Profile} (hr : 0 < p.rKcrypt) (x : ByteString) :
    CryptLoopInverts p x (chunks x p.rKcrypt) :=
  chunks_induction hr (fun _ hx => cryptLoopInverts_singleton hx)
    (fun _ _ hx hy ih => cryptLoopInverts_cons hr hx hy ih) x

/-! ### The two crypt commands -/

theorem encryptCmd_of_kAd (p : Profile) (x : ByteString) {s : State} (herr : s.err = false) (hseq : s.seq = .kAd) :
    encryptCmd p x s = complete (encryptBody p x) s :=
  guarded_ok s _ ((prologue_encrypt s).2 ⟨herr, hseq⟩)

theorem decryptCmd_of_kAd (p : Profile) (x : ByteString) {s : State} (herr : s.err = false) (hseq : s.seq = .kAd) :
    decryptCmd p x s = complete (decryptBody p x) s :=
  guarded_ok s _ ((prologue_decrypt s).2 ⟨herr, hseq⟩)

/-- R160 for the crypt commands: ENCRYPT answers a ciphertext as long as the plaintext, and DECRYPT of it ends in the
very state ENCRYPT ends in, but for answering the plaintext. -/
theorem decryptCmd_encryptCmd {p : Profile} (hr : 0 < p.rKcrypt) (x : ByteString) {s : State} (herr : s.err = false)
    (hseq : s.seq = .kAd) :
    ∃ out : ByteString, out.length = x.length ∧ (encryptCmd p x s).respOut = s.respOut ++ statusOk :: out ∧
      decryptCmd p out s = (encryptCmd p x s).withResp (s.respOut ++ statusOk :: x) := by
  obtain ⟨out, hlen, hresp, hdec⟩ := cryptLoopInverts_chunks hr x s.beginCommand
  refine ⟨out, hlen, ?_, ?_⟩
  · rw [encryptCmd_of_kAd p x herr hseq]
    exact hresp.trans (List.append_assoc _ _ _)
  · rw [encryptCmd_of_kAd p x herr hseq, decryptCmd_of_kAd p out herr hseq]
    have hloop := hdec (s.respOut ++ [statusOk])
    rw [List.append_assoc] at hloop
    exact congrArg (fun t : State => (t.putSeq .kCrypt).endCommand) hloop

/-! ### The tag -/

/-- The tag SQUEEZE_TAG answers in `s`, against which VERIFY_TAG compares (42_duplex_commands R157, R158). -/
def tagOf (s : State) : ByteString := lead tagLen (up cuSqueeze s)

@[simp] theorem length_tagOf (s : State) : (tagOf s).length = tagLen := length_lead _ _

theorem squeezeTagCmd_respOut {s : State} (herr : s.err = false) (hseq : s.seq = .kCrypt) :
    (squeezeTagCmd s).respOut = s.respOut ++ statusOk :: tagOf s := by
  rw [squeezeTagCmd, guarded_ok s _ ((prologue_squeezeTag s).2 ⟨herr, hseq⟩)]
  exact List.append_assoc _ _ _

/-- Comparing bytes that are equal adds nothing to ACC. -/
theorem foldl_orAccStep_of_eq {a : Lanes} {t : ByteString} {is : List Nat} (h : ∀ i ∈ is, t.getD i 0 = a.byte i)
    (acc : Byte) : is.foldl (orAccStep a t) acc = acc := by
  induction is generalizing acc with
  | nil => rfl
  | cons i is ih =>
    have hstep : orAccStep a t acc i = acc := by rw [orAccStep, h i List.mem_cons_self, BitVec.xor_self, BitVec.or_zero]
    rw [List.foldl_cons, hstep, ih (fun j hj => h j (List.mem_cons_of_mem i hj))]

theorem getD_lead (n : Nat) (s : State) {i : Nat} (hi : i < n) : (lead n s).getD i 0 = s.byte i := by
  have hlen : i < (lead n s).length := by simpa using hi
  rw [List.getD_eq_getElem _ _ hlen, getElem_lead n s hlen]

theorem verifyTag_acc_tagOf (s : State) : (complete (verifyTagBody (tagOf s)) s).acc = 0 :=
  foldl_orAccStep_of_eq (fun _ hi => getD_lead tagLen (up cuSqueeze s) (List.mem_range.1 hi)) 0

/-- VERIFY_TAG accepts the tag that SQUEEZE_TAG answers in the same state. -/
theorem verifyTagCmd_tagOf {s : State} (herr : s.err = false) (hseq : s.seq = .kCrypt) :
    (verifyTagCmd (tagOf s) s).valid = true ∧
      (verifyTagCmd (tagOf s) s).respOut = s.respOut ++ [statusOk, validByte true] := by
  rw [verifyTagCmd_of_prologue ((prologue_verifyTag s).2 ⟨herr, hseq⟩), if_pos (length_tagOf s)]
  have hvalid : validOf (complete (verifyTagBody (tagOf s)) s).acc = true := by rw [verifyTag_acc_tagOf]; rfl
  refine ⟨hvalid, ?_⟩
  rw [← hvalid]
  exact List.append_assoc _ _ _

/-! ### From an absorbed state on -/

/-- R160 from the state after ABSORB: DECRYPT ends where ENCRYPT ends, so the candidate of VERIFY_TAG is the tag that
SQUEEZE_TAG answered. -/
theorem crypt_and_tag_roundTrip {p : Profile} (hr : 0 < p.rKcrypt) (pt : ByteString) {s : State} (herr : s.err = false)
    (hseq : s.seq = .kAd) :
    ∃ ct tag : ByteString, ct.length = pt.length ∧ tag.length = tagLen ∧
      (squeezeTagCmd (encryptCmd p pt s)).respOut = s.respOut ++ statusOk :: ct ++ statusOk :: tag ∧
      (decryptCmd p ct s).lanes = (encryptCmd p pt s).lanes ∧
      (verifyTagCmd tag (decryptCmd p ct s)).valid = true ∧
      (verifyTagCmd tag (decryptCmd p ct s)).respOut = s.respOut ++ statusOk :: pt ++ [statusOk, validByte true] := by
  obtain ⟨ct, hlen, henc, hdec⟩ := decryptCmd_encryptCmd hr pt herr hseq
  have herr' : (encryptCmd p pt s).err = false := by rw [encryptCmd_of_kAd p pt herr hseq, encrypt_err, herr]
  have hseq' : (encryptCmd p pt s).seq = .kCrypt := by rw [encryptCmd_of_kAd p pt herr hseq, encrypt_seq]
  obtain ⟨hvalid, hresp⟩ := verifyTagCmd_tagOf (s := decryptCmd p ct s) (by simpa [hdec]) (by simpa [hdec])
  have htag : tagOf (decryptCmd p ct s) = tagOf (encryptCmd p pt s) := by rw [hdec]; rfl
  rw [htag] at hvalid hresp
  refine ⟨ct, tagOf (encryptCmd p pt s), hlen, length_tagOf _, ?_, ?_, hvalid, ?_⟩
  · rw [squeezeTagCmd_respOut herr' hseq', henc]
  · rw [hdec, State.withResp_lanes]
  · rw [hresp, hdec, State.withResp_respOut]

/-! ### The sequences start afresh -/

/-- The state in which an AEAD sequence issues its crypt command (43_protocol_sequences R181, R182). -/
def afterAd (p : Profile) (key nonce ad : ByteString) (s : State) : State := absorbCmd p ad (initKeyedCmd key nonce s)

/-- `s` shows after an accepted INIT_KEYED only as older bytes and records, and as the reset count. -/
theorem initKeyedCmd_eq_rebase {key nonce : ByteString} (hkey : key.length = keyLen) (hnonce : nonce.length = nonceLen)
    (s : State) : initKeyedCmd key nonce s =
      (initKeyedCmd key nonce State.reset).rebase s.respOut s.cmdIn s.trace s.resets := by
  rw [initKeyedCmd, initKeyedCmd, if_pos ⟨hkey, hnonce⟩, if_pos ⟨hkey, hnonce⟩]
  rfl

theorem afterAd_eq_rebase {key nonce : ByteString} (hkey : key.length = keyLen) (hnonce : nonce.length = nonceLen)
    (p : Profile) (ad : ByteString) (s : State) : afterAd p key nonce ad s =
      (afterAd p key nonce ad State.reset).rebase s.respOut s.cmdIn s.trace s.resets := by
  rw [afterAd, initKeyedCmd_eq_rebase hkey hnonce, absorbCmd_rebase, afterAd]

theorem aeadEncSeq_eq_rebase {key nonce : ByteString} (hkey : key.length = keyLen) (hnonce : nonce.length = nonceLen)
    (p : Profile) (ad pt : ByteString) (s : State) : aeadEncSeq p key nonce ad pt s =
      (squeezeTagCmd (encryptCmd p pt (afterAd p key nonce ad State.reset))).rebase
        s.respOut s.cmdIn s.trace s.resets := by
  rw [aeadEncSeq, ← afterAd, afterAd_eq_rebase hkey hnonce, encryptCmd_rebase, squeezeTagCmd_rebase]

theorem aeadDecSeq_eq_rebase {key nonce : ByteString} (hkey : key.length = keyLen) (hnonce : nonce.length = nonceLen)
    (p : Profile) (tag ad ct : ByteString) (s : State) : aeadDecSeq p key nonce tag ad ct s =
      (verifyTagCmd tag (decryptCmd p ct (afterAd p key nonce ad State.reset))).rebase
        s.respOut s.cmdIn s.trace s.resets := by
  rw [aeadDecSeq, ← afterAd, afterAd_eq_rebase hkey hnonce, decryptCmd_rebase, verifyTagCmd_rebase]

@[simp] theorem State.reset_respOut : State.reset.respOut = [] := rfl

/-- With legal lengths INIT_KEYED and ABSORB are both accepted. -/
theorem afterAd_accepted {key nonce : ByteString} (hkey : key.length = keyLen) (hnonce : nonce.length = nonceLen)
    (p : Profile) (ad : ByteString) (s : State) :
    (afterAd p key nonce ad s).err = false ∧ (afterAd p key nonce ad s).seq = .kAd ∧
      (afterAd p key nonce ad s).respOut = s.respOut ++ [statusOk, statusOk] := by
  have hinit : initKeyedCmd key nonce s = complete (initKeyedBody key nonce) s := if_pos ⟨hkey, hnonce⟩
  rw [afterAd, hinit, absorbCmd, guarded_ok _ _ ((prologue_absorb _).2 (by simp))]
  simp [absorb_seq]

/-! ### What the host reads from the answers -/

theorem aeadEncResult_of_respOut {p : Profile} {key nonce ad pt ct tag : ByteString} {s : State}
    (hkey : key.length = keyLen) (hnonce : nonce.length = nonceLen) (hct : ct.length = pt.length)
    (h : (aeadEncSeq p key nonce ad pt s).respOut =
      s.respOut ++ [statusOk, statusOk, statusOk] ++ ct ++ statusOk :: tag) :
    aeadEncResult p key nonce ad pt s = some (ct, tag) := by
  simp [aeadEncResult, encArgumentsOk, answered, hkey, hnonce, h, ← hct]

theorem aeadDecResult_of_respOut {p : Profile} {key nonce tag ad ct pt : ByteString} {s : State}
    (hkey : key.length = keyLen) (hnonce : nonce.length = nonceLen) (htag : tag.length = tagLen)
    (hpt : pt.length = ct.length) (v : Bool)
    (h : (aeadDecSeq p key nonce tag ad ct s).respOut =
      s.respOut ++ [statusOk, statusOk, statusOk] ++ pt ++ [statusOk, validByte v]) :
    aeadDecResult p key nonce tag ad ct s = some (v, pt) := by
  have hv : ([validByte v] == [validByte true]) = v := by cases v <;> rfl
  simp [aeadDecResult, decArgumentsOk, encArgumentsOk, answered, hkey, hnonce, htag, h, ← hpt, hv]

/-! ### The obligation -/

/-- Settles O40: both sequences do from any state what they do from the reset state, but for what stood in the streams
before; and from the reset state the round trip is that of the commands after ABSORB. -/
theorem aeadRoundTrip : Obligations.AeadRoundTrip := by
  intro p key nonce ad pt s ⟨_, _, hr, _⟩ hkey hnonce
  obtain ⟨herr, hseq, hstart⟩ := afterAd_accepted hkey hnonce p ad State.reset
  obtain ⟨ct, tag, hct, htag, henc, hlanes, hvalid, hdec⟩ := crypt_and_tag_roundTrip hr pt herr hseq
  have hencResp : (aeadEncSeq p key nonce ad pt s).respOut =
      s.respOut ++ [statusOk, statusOk, statusOk] ++ ct ++ statusOk :: tag := by
    simp [aeadEncSeq_eq_rebase hkey hnonce, henc, hstart]
  refine ⟨ct, tag, aeadEncResult_of_respOut hkey hnonce hct hencResp, hct, htag, fun s' => ⟨?_, ?_, ?_⟩⟩
  · have hdecResp : (aeadDecSeq p key nonce tag ad ct s').respOut =
        s'.respOut ++ [statusOk, statusOk, statusOk] ++ pt ++ [statusOk, validByte true] := by
      simp [aeadDecSeq_eq_rebase hkey hnonce, hdec, hstart]
    exact aeadDecResult_of_respOut hkey hnonce htag hct.symm true hdecResp
  · rw [← afterAd, ← afterAd, afterAd_eq_rebase hkey hnonce p ad s, afterAd_eq_rebase hkey hnonce p ad s',
      encryptCmd_rebase, decryptCmd_rebase]
    exact hlanes
  · rw [aeadDecSeq_eq_rebase hkey hnonce]
    exact hvalid

end Sys2Proof.Machine
end

section
/-! PROOFS of 60_exceptions R191: the fields of a header read off its bytes, which frames are illegal, and what a step
does with one. -/

namespace Sys2Proof.Machine

/-! ### The fields of a header, byte by byte (30_encoding R81 to R84) -/

theorem field_headerWord (f : Format) (bs : ByteString) (hi lo : Nat) :
    field (headerWord f bs) hi lo = leNat (bs.take f.headerBytes) / 2 ^ lo % 2 ^ (hi - lo + 1) :=
  field_ofNat _ hi lo (headerNat_lt f bs)

theorem leNat_cons (b : Byte) (bs : ByteString) : leNat (b :: bs) = b.toNat + 256 * leNat bs := rfl

/-- A byte string stands for 0 only when all its bytes are 0. -/
theorem leNat_eq_zero_iff (x : ByteString) : leNat x = 0 ↔ ∀ b ∈ x, b = 0 := by
  induction x with
  | nil => simp [leNat]
  | cons b bs ih =>
    have hb : b.toNat = 0 ↔ b = 0 := ⟨fun h => BitVec.eq_of_toNat_eq h, fun h => h ▸ rfl⟩
    simp [leNat_cons, ih, hb]

/-- A field that holds the bytes `y`, which stand in the header after the bytes `x`, is the number of `y`. -/
theorem field_headerWord_of_take {f : Format} {bs x y z : ByteString} (h : bs.take f.headerBytes = x ++ (y ++ z))
    {hi lo : Nat} (hlo : lo = 8 * x.length) (hhi : hi - lo + 1 = 8 * y.length) :
    field (headerWord f bs) hi lo = leNat y := by
  have hx := leNat_lt x
  have hy := leNat_lt y
  rw [field_headerWord, h, hhi, hlo, pow_mul, pow_mul 2 8 y.length, leNat_append, leNat_append]
  norm_num only
  rw [Nat.add_mul_div_left _ _ (by positivity), Nat.div_eq_of_lt hx, Nat.zero_add, Nat.add_mul_mod_self_left,
    Nat.mod_eq_of_lt hy]

/-- The `zero` field of formats N and L is stream bytes 1 to 3. -/
theorem zeroField_three_bytes {f : Format} (hf : f = .N ∨ f = .L) (op b1 b2 b3 : Byte) (bs : ByteString) :
    zeroField f (headerWord f (op :: b1 :: b2 :: b3 :: bs)) = leNat [b1, b2, b3] := by
  obtain rfl | rfl := hf
  · exact field_headerWord_of_take (x := [op]) (z := []) rfl rfl rfl
  · exact field_headerWord_of_take (x := [op]) (z := bs.take 4) rfl rfl rfl

/-- The `zero` field of format K is stream byte 3. -/
theorem zeroField_K (op klen nlen z : Byte) (bs : ByteString) :
    zeroField .K (headerWord .K (op :: klen :: nlen :: z :: bs)) = leNat [z] :=
  field_headerWord_of_take (x := [op, klen, nlen]) (z := []) rfl rfl rfl

theorem klenField_headerWord (op klen nlen z : Byte) (bs : ByteString) :
    klenField (headerWord .K (op :: klen :: nlen :: z :: bs)) = klen.toNat :=
  field_headerWord_of_take (x := [op]) (y := [klen]) (z := [nlen, z]) rfl rfl rfl

theorem nlenField_headerWord (op klen nlen z : Byte) (bs : ByteString) :
    nlenField (headerWord .K (op :: klen :: nlen :: z :: bs)) = nlen.toNat :=
  field_headerWord_of_take (x := [op, klen]) (y := [nlen]) (z := [z]) rfl rfl rfl

/-- `len` is stream bytes 4 to 7. -/
theorem lenField_headerWord (op b1 b2 b3 : Byte) {len : ByteString} (hlen : len.length = 4) (bs : ByteString) :
    lenField (headerWord .L (op :: b1 :: b2 :: b3 :: (len ++ bs))) = leNat len := by
  refine field_headerWord_of_take (x := [op, b1, b2, b3]) (z := []) ?_ rfl (by rw [hlen])
  simp [Format.headerBytes, ← hlen]

/-! ### Illegal frames -/

/-- A known opcode whose `zero` field is not 0 is an illegal frame as long as its header announces. -/
theorem decode_of_zeroField_ne_zero {k : CmdKind} {op : Byte} (hop : commandOf op = some k) {bs : ByteString}
    (hlen : (op :: bs).length = (formatOf k).headerBytes + payloadBytes k (headerWord (formatOf k) (op :: bs)))
    (hz : zeroField (formatOf k) (headerWord (formatOf k) (op :: bs)) ≠ 0) :
    decode (op :: bs) = .illegal (.nonzeroZeroField k) (op :: bs).length := by
  simp only [decode, hop, decodeKnown]
  rw [if_neg (by omega), if_neg (by omega), if_neg hz, hlen]

theorem decode_of_reserved {op : Byte} (hop : op = 0 ∨ 9 ≤ op.toNat) (b1 b2 b3 : Byte) :
    decode [op, b1, b2, b3] = .illegal (.reservedOpcode op) 4 := by
  simp [decode, (commandOf_eq_none_iff op).2 hop]

/-- A step on a stream that begins with an illegal frame consumes that frame and raises IllegalCommand, whatever
follows and whatever the state. -/
theorem step_of_illegal_frame {frame : ByteString} {why : IllegalHeader}
    (hframe : decode frame = .illegal why frame.length) {s : State} {rest : ByteString}
    (hin : s.cmdIn = frame ++ rest) :
    step s = .next (raise .illegalCommand { s with cmdIn := rest }) := by
  have hfetch : fetch s = .illegal why frame.length := by
    rw [fetch, hin, decode_append rest (by simp [hframe]), hframe]
  simp [step, hfetch, rejectFrame, State.consume, hin]

/-- The case of R191 with a known opcode, from the frame's bytes. -/
theorem step_of_zeroField_ne_zero {k : CmdKind} {op : Byte} (hop : commandOf op = some k) {bs : ByteString}
    (hlen : (op :: bs).length = (formatOf k).headerBytes + payloadBytes k (headerWord (formatOf k) (op :: bs)))
    (hz : zeroField (formatOf k) (headerWord (formatOf k) (op :: bs)) ≠ 0) {s : State} {rest : ByteString}
    (hin : s.cmdIn = op :: bs ++ rest) :
    step s = .next (raise .illegalCommand { s with cmdIn := rest }) :=
  step_of_illegal_frame (decode_of_zeroField_ne_zero hop hlen hz) hin

theorem leNat_three_bytes_ne_zero {b1 b2 b3 : Byte} (h : ¬ (b1 = 0 ∧ b2 = 0 ∧ b3 = 0)) :
    leNat [b1, b2, b3] ≠ 0 := by
  simpa [leNat_eq_zero_iff] using h

/-! ### The obligation, format by format -/

/-- INIT_HASH and SQUEEZE_TAG: the frame is the header. -/
theorem step_of_illegal_N {k : CmdKind} (hk : formatOf k = .N) {op : Byte} (hop : commandOf op = some k)
    {b1 b2 b3 : Byte} (hz : ¬ (b1 = 0 ∧ b2 = 0 ∧ b3 = 0)) {s : State} {rest : ByteString}
    (hin : s.cmdIn = op :: b1 :: b2 :: b3 :: rest) :
    step s = .next (raise .illegalCommand { s with cmdIn := rest }) := by
  have hpay : ∀ w, payloadBytes k w = 0 := by cases k <;> cases hk <;> intro w <;> rfl
  refine step_of_zeroField_ne_zero (bs := [b1, b2, b3]) hop ?_ ?_ hin
  · rw [hpay, hk]
    rfl
  · rw [hk, zeroField_three_bytes (.inl rfl)]
    exact leNat_three_bytes_ne_zero hz

/-- INIT_KEYED: the payload is the key and the nonce. -/
theorem step_of_illegal_K {klen nlen z : Byte} {payload rest : ByteString} (hz : z ≠ 0)
    (hpay : payload.length = klen.toNat + nlen.toNat) {s : State}
    (hin : s.cmdIn = 0x02 :: klen :: nlen :: z :: (payload ++ rest)) :
    step s = .next (raise .illegalCommand { s with cmdIn := rest }) := by
  refine step_of_zeroField_ne_zero (k := .initKeyed) (bs := klen :: nlen :: z :: payload) rfl ?_ ?_ hin
  · simp only [formatOf, payloadBytes, klenField_headerWord, nlenField_headerWord, List.length_cons, hpay,
      Format.headerBytes]
    omega
  · rw [formatOf, zeroField_K]
    simpa [leNat_eq_zero_iff] using hz

/-- The commands of format L: `len` bytes of payload, none for SQUEEZE. -/
theorem step_of_illegal_L {k : CmdKind} (hk : formatOf k = .L) {op : Byte} (hop : commandOf op = some k)
    {b1 b2 b3 : Byte} {len payload rest : ByteString} (hz : ¬ (b1 = 0 ∧ b2 = 0 ∧ b3 = 0)) (hlen : len.length = 4)
    (hpay : payload.length = if k = .squeeze then 0 else leNat len) {s : State}
    (hin : s.cmdIn = op :: b1 :: b2 :: b3 :: (len ++ payload ++ rest)) :
    step s = .next (raise .illegalCommand { s with cmdIn := rest }) := by
  have hannounced : payloadBytes k (headerWord .L (op :: b1 :: b2 :: b3 :: (len ++ payload))) = payload.length := by
    cases k <;> cases hk
    case squeeze => exact hpay.symm
    all_goals exact (lenField_headerWord op b1 b2 b3 hlen payload).trans hpay.symm
  refine step_of_zeroField_ne_zero (bs := b1 :: b2 :: b3 :: (len ++ payload)) hop ?_ ?_ hin
  · rw [hk, hannounced]
    simp only [List.length_cons, List.length_append, hlen, Format.headerBytes]
    omega
  · rw [hk, zeroField_three_bytes (.inr rfl)]
    exact leNat_three_bytes_ne_zero hz

/-- Settles O3, format by format: the step depends on the frame alone, so it is the same in every state. -/
theorem illegalFramesRaiseIllegalCommand : Obligations.IllegalFramesRaiseIllegalCommand := by
  intro s
  refine ⟨?reserved, ?formatN, ?formatK, ?formatL, ?squeeze⟩
  case reserved =>
    intro op b1 b2 b3 rest hop hin
    exact step_of_illegal_frame (decode_of_reserved hop b1 b2 b3) hin
  case formatN =>
    intro op b1 b2 b3 rest hop hz hin
    obtain rfl | rfl := hop
    · exact step_of_illegal_N (k := .initHash) rfl rfl hz hin
    · exact step_of_illegal_N (k := .squeezeTag) rfl rfl hz hin
  case formatK =>
    intro klen nlen z payload rest hz hpay hin
    exact step_of_illegal_K hz hpay hin
  case formatL =>
    intro op b1 b2 b3 payload rest hop hz hlt hin
    have hlen : payload.length = leNat (leBytes 4 payload.length) := by
      rw [leNat_leBytes, Nat.mod_eq_of_lt (by simpa using hlt)]
    obtain rfl | rfl | rfl | rfl := hop
    · exact step_of_illegal_L (k := .absorb) rfl rfl hz (length_leBytes 4 _) hlen hin
    · exact step_of_illegal_L (k := .encrypt) rfl rfl hz (length_leBytes 4 _) hlen hin
    · exact step_of_illegal_L (k := .decrypt) rfl rfl hz (length_leBytes 4 _) hlen hin
    · exact step_of_illegal_L (k := .verifyTag) rfl rfl hz (length_leBytes 4 _) hlen hin
  case squeeze =>
    intro b1 b2 b3 l0 l1 l2 l3 rest hz hin
    exact step_of_illegal_L (k := .squeeze) (len := [l0, l1, l2, l3]) (payload := []) rfl rfl hz rfl rfl hin

end Sys2Proof.Machine
end

section
/-! PROOFS of 60_exceptions R193, R194 and R197: which fault the prologue raises, said once for SequenceError and once
for ModeError, and from that what a command answers that is not accepted, also while ERR = 1. -/

namespace Sys2Proof.Machine

/-! ### Which fault the prologue raises -/

/-- The commands that do not exist in the current MODE, by SEQ (60_exceptions R194). -/
theorem wrongMode_iff (q : Seq) (k : CmdKind) : wrongMode q k = true ↔
    (q ∈ [Seq.hInit, .hAbs] ∧ k ∈ [CmdKind.encrypt, .decrypt, .squeezeTag, .verifyTag]) ∨
      (q ∈ [Seq.kInit, .kAd, .kCrypt] ∧ k = .squeeze) := by
  cases q <;> simp [wrongMode, or_assoc]

/-- The commands that the table of R32 does not list although R194 does not apply, by SEQ (60_exceptions R193 (b)). -/
theorem nextSeq_eq_none_and_not_wrongMode_iff {k : CmdKind} (hHash : k ≠ .initHash) (hKeyed : k ≠ .initKeyed)
    (q : Seq) : nextSeq q k = none ∧ wrongMode q k = false ↔
      (q = .idle ∨ q = .done) ∨
      (q = .hInit ∧ k = .squeeze) ∨
      (q = .kInit ∧ k ∈ [CmdKind.encrypt, .decrypt, .squeezeTag, .verifyTag]) ∨
      (q = .kAd ∧ k ∈ [CmdKind.squeezeTag, .verifyTag]) ∨
      (q = .kCrypt ∧ k ∈ [CmdKind.absorb, .encrypt, .decrypt]) := by
  cases k
  case initHash => exact absurd rfl hHash
  case initKeyed => exact absurd rfl hKeyed
  all_goals cases q <;> decide

theorem prologueFault_of_wrongMode {k : CmdKind} {s : State} (herr : s.err = false)
    (hmode : wrongMode s.seq k = true) : prologueFault k s = some .modeError := by
  simp [prologueFault, herr, hmode]

/-- A command without a row in the table of R32 raises SequenceError where ModeError does not apply, whatever ERR is. -/
theorem prologueFault_of_nextSeq_eq_none {k : CmdKind} {s : State} (hHash : k ≠ .initHash) (hKeyed : k ≠ .initKeyed)
    (h : nextSeq s.seq k = none ∧ wrongMode s.seq k = false) : prologueFault k s = some .sequenceError := by
  obtain ⟨hrow, hmode⟩ := h
  have hlisted : permitted s.seq k = false := by
    simpa [hrow, hmode] using permitted_and_not_wrongMode_iff_nextSeq hHash hKeyed s.seq
  simp [prologueFault, hmode, hlisted]

/-! ### What a command answers that is not accepted -/

/-- A command other than the two INITs raises the fault its prologue meets. -/
theorem exec_of_prologueFault {i : Instr} {k : CmdKind} {s : State} {f : Raised} (hk : i.command? = some k)
    (hHash : k ≠ .initHash) (hKeyed : k ≠ .initKeyed) (h : prologueFault k s = some f) :
    exec i s = .next (raise f s) := by
  cases i <;> cases hk
  case initHash => exact absurd rfl hHash
  case initKeyed key nonce => exact absurd rfl hKeyed
  all_goals exact congrArg Host.Outcome.next (guarded_fault s _ h)

/-- The length check of INIT_KEYED is its only one, whatever ERR is (60_exceptions R192). -/
theorem exec_initKeyed_of_not_argumentsOk {key nonce : ByteString} (h : argumentsOk (.initKeyed key nonce) = false)
    (s : State) : exec (.initKeyed key nonce) s = .next (raise .invalidArgument s) := by
  have hlens : ¬ (key.length = keyLen ∧ nonce.length = nonceLen) := by
    simpa [argumentsOk, keyLen, nonceLen] using h
  exact congrArg Host.Outcome.next (if_neg hlens)

/-! ### While ERR = 1 -/

/-- A fault raised while ERR = 1 leaves CAUSE with the first code and the rest of what an INIT sets as it was
(60_exceptions R197). -/
theorem raise_of_err {s : State} (herr : s.err = true) (f : Raised) :
    (raise f s).err = true ∧ (raise f s).cause = s.cause ∧ SameInstance s (raise f s) := by
  obtain ⟨hlanes, hphase, hmode, hseq, hacc, hvalid⟩ := raise_sameInstance s f
  exact ⟨raise_err s f, by simp [herr], ⟨hlanes, hphase, hmode, hseq, hacc, hvalid⟩⟩

/-- The commands that clear ERR: INIT_HASH and a legal INIT_KEYED (60_exceptions R197). -/
abbrev ClearsErr (i : Instr) (k : CmdKind) : Prop :=
  k = .initHash ∨ (k = .initKeyed ∧ argumentsOk i = true)

theorem commandAccepted_of_clearsErr {i : Instr} {k : CmdKind} (hk : i.command? = some k) (h : ClearsErr i k)
    (s : State) : CommandAccepted i k s := by
  obtain rfl | ⟨rfl, hargs⟩ := h
  · cases i <;> cases hk
    exact commandAccepted_initHash s
  · exact ⟨.inr (.inr rfl), hargs, by simp [nextSeq]⟩

/-- Either INIT starts anew: no fault record, ACC and VALID cleared, SEQ, MODE and PHASE its own
(42_duplex_commands R150, R151). -/
theorem commandBody_of_clearsErr {i : Instr} {k : CmdKind} (hk : i.command? = some k) (h : ClearsErr i k)
    (s : State) :
    let t := complete (commandBody i) s
    t.err = false ∧ t.cause = 0 ∧ t.valid = false ∧ t.acc = 0 ∧ t.respOut = s.respOut ++ [0x00] ∧
      t.seq = (if k = .initHash then .hInit else .kInit) ∧
      t.mode = (if k = .initHash then .hash else .keyed) ∧ t.phase = (if k = .initHash then .up else .down) := by
  obtain rfl | ⟨rfl, -⟩ := h <;> cases i <;> cases hk
  case inl.initHash => simp [commandBody, statusOk]
  case inr.initKeyed key nonce => simp [commandBody, statusOk]

/-- While ERR = 1 every command that does not clear it faults: INIT_KEYED by its length check, the others by the
prologue. -/
theorem exec_of_err {i : Instr} {k : CmdKind} {s : State} (hk : i.command? = some k) (herr : s.err = true)
    (h : ¬ ClearsErr i k) :
    exec i s = .next (raise (if k = .initKeyed then .invalidArgument else .sequenceError) s) := by
  obtain ⟨hHash, hargs⟩ := not_or.1 h
  by_cases hKeyed : k = .initKeyed
  · subst hKeyed
    cases i <;> cases hk
    exact exec_initKeyed_of_not_argumentsOk (by simpa using hargs) s
  · rw [if_neg hKeyed]
    exact exec_of_prologueFault hk hHash hKeyed (prologueFault_of_err herr)

/-! ### The obligations -/

/-- Settles O49: with ERR = 1 the prologue stops at once; the other cases are those that the table of R32 does not list
and R194 does not take. -/
theorem sequenceErrorCases : Obligations.SequenceErrorCases := by
  intro i k s hk hHash hKeyed h
  refine exec_of_prologueFault hk hHash hKeyed ?_
  obtain herr | hpos := h
  · exact prologueFault_of_err herr
  · have hrow := (nextSeq_eq_none_and_not_wrongMode_iff hHash hKeyed s.seq).2 hpos
    exact prologueFault_of_nextSeq_eq_none hHash hKeyed hrow

/-- Settles O50: the listed cases are those of `wrongMode`; in IDLE and DONE no command has the wrong mode and the
table of R32 has no row. -/
theorem modeErrorCases : Obligations.ModeErrorCases := by
  intro i k s hk herr
  constructor
  · intro h
    have hmode := (wrongMode_iff s.seq k).2 h
    have hHash : k ≠ .initHash := by rintro rfl; simp at h
    have hKeyed : k ≠ .initKeyed := by rintro rfl; simp at h
    exact exec_of_prologueFault hk hHash hKeyed (prologueFault_of_wrongMode herr hmode)
  · intro hq hkind
    have hHash : k ≠ .initHash := ne_of_mem_of_not_mem hkind (by decide)
    have hKeyed : k ≠ .initKeyed := ne_of_mem_of_not_mem hkind (by decide)
    have hpos : s.seq = .idle ∨ s.seq = .done := by simpa using hq
    have hrow := (nextSeq_eq_none_and_not_wrongMode_iff hHash hKeyed s.seq).2 (.inl hpos)
    exact exec_of_prologueFault hk hHash hKeyed (prologueFault_of_nextSeq_eq_none hHash hKeyed hrow)

/-- Settles O51: an INIT that clears ERR is accepted and completes its body; any other command raises a fault, which
changes nothing of S, PHASE, MODE, SEQ, ACC and VALID and, with ERR = 1, keeps the old CAUSE. -/
theorem faultRecordIsSticky : Obligations.FaultRecordIsSticky := by
  intro i k s hk herr
  by_cases h : ClearsErr i k
  · refine ⟨_, exec_of_commandAccepted hk (commandAccepted_of_clearsErr hk h s), ?_⟩
    rw [if_pos h]
    exact commandBody_of_clearsErr hk h s
  · refine ⟨_, exec_of_err hk herr h, ?_⟩
    rw [if_neg h]
    obtain ⟨herr', hcause, hsame⟩ := raise_of_err herr (if k = .initKeyed then .invalidArgument else .sequenceError)
    refine ⟨herr', hcause, hsame, ?_⟩
    rw [raise_respOut]
    split <;> rfl

end Sys2Proof.Machine
end

section
/-! PROOFS of 30_encoding R80 to R87, R90, R92 and R93: the decoder's verdict read off the bytes of a frame, that the
encoder and the decoder undo each other, and which streams the decoder waits on. -/

namespace Sys2Proof.Machine

/-! ### The decoder's verdict on a known opcode -/

/-- A known opcode whose `zero` field is 0 begins a frame of its command, as long as its header announces. -/
theorem decode_of_zeroField_eq_zero {k : CmdKind} {op : Byte} (hop : commandOf op = some k) {bs : ByteString}
    (hlen : (op :: bs).length = (formatOf k).headerBytes + payloadBytes k (headerWord (formatOf k) (op :: bs)))
    (hz : zeroField (formatOf k) (headerWord (formatOf k) (op :: bs)) = 0) :
    decode (op :: bs) =
      .command (assemble k (headerWord (formatOf k) (op :: bs)) ((op :: bs).drop (formatOf k).headerBytes))
        (op :: bs).length := by
  simp only [decode, hop, decodeKnown]
  rw [if_neg (by omega), if_neg (by omega), if_pos hz, ← hlen, List.take_length]

/-- What a stream decoded as a command looks like: its opcode names a command, the whole frame is there, and the `zero`
field is 0. -/
theorem decode_eq_command {bs : ByteString} {i : Instr} {n : Nat} (h : decode bs = .command i n) :
    ∃ (op : Byte) (tail : ByteString) (k : CmdKind), bs = op :: tail ∧ commandOf op = some k ∧
      n = (formatOf k).headerBytes + payloadBytes k (headerWord (formatOf k) bs) ∧ n ≤ bs.length ∧
      zeroField (formatOf k) (headerWord (formatOf k) bs) = 0 ∧
      i = assemble k (headerWord (formatOf k) bs) ((bs.take n).drop (formatOf k).headerBytes) := by
  have hlen := (decode_command_length h).2
  cases bs with
  | nil => simp [decode] at h
  | cons op tail =>
    cases hop : commandOf op with
    | none => simp only [decode, hop] at h; split at h <;> simp at h
    | some k =>
      simp only [decode, hop, decodeKnown] at h
      split at h
      · simp at h
      · split at h
        · simp at h
        · split at h
          case isFalse => simp at h
          case isTrue hz =>
            obtain ⟨rfl, rfl⟩ := Decoded.command.inj h
            exact ⟨op, tail, k, rfl, hop, rfl, hlen, hz, rfl⟩

/-- The decoder waits on a known opcode while its header or the payload announced is missing, whatever the `zero`
field. -/
theorem decode_eq_incomplete_iff_of_commandOf {k : CmdKind} {op : Byte} (hop : commandOf op = some k)
    (bs : ByteString) : decode (op :: bs) = .incomplete ↔
      (op :: bs).length < (formatOf k).headerBytes ∨
        (op :: bs).length < (formatOf k).headerBytes + payloadBytes k (headerWord (formatOf k) (op :: bs)) := by
  simp only [decode, hop, decodeKnown]
  split
  case isTrue h => exact iff_of_true rfl (.inl h)
  case isFalse h =>
    split
    case isTrue hp => exact iff_of_true rfl (.inr hp)
    case isFalse hp => split <;> exact iff_of_false nofun (not_or.2 ⟨h, hp⟩)

theorem decode_eq_incomplete_iff_of_reserved {op : Byte} (hop : commandOf op = none) (bs : ByteString) :
    decode (op :: bs) = .incomplete ↔ (op :: bs).length < 4 := by
  simp only [decode, hop]
  split
  case isTrue h => simpa using h
  case isFalse h => simpa using h

/-! ### Frames -/

/-- An operation has a frame exactly when it is a well-formed command, and the frame has the announced length. -/
theorem frameLength_statement (i : Instr) : Laws.FrameLength.Statement i := by
  cases i with
  | initHash => exact Laws.FrameLength.initHash
  | initKeyed key nonce => exact Laws.FrameLength.initKeyed key nonce
  | absorb x => exact Laws.FrameLength.absorb x
  | squeeze l => exact Laws.FrameLength.squeeze l
  | encrypt x => exact Laws.FrameLength.encrypt x
  | decrypt x => exact Laws.FrameLength.decrypt x
  | squeezeTag => exact Laws.FrameLength.squeezeTag
  | verifyTag t => exact Laws.FrameLength.verifyTag t
  | theta => exact Laws.FrameLength.theta
  | rhoWest => exact Laws.FrameLength.rhoWest
  | iota r => exact Laws.FrameLength.iota r
  | chi => exact Laws.FrameLength.chi
  | rhoEast => exact Laws.FrameLength.rhoEast
  | round r => exact Laws.FrameLength.round r
  | permute => exact Laws.FrameLength.permute
  | up cu => exact Laws.FrameLength.up cu
  | down x cd => exact Laws.FrameLength.down x cd
  | downOvr x cd => exact Laws.FrameLength.downOvr x cd
  | hash m => exact Laws.FrameLength.hash m
  | aeadEnc key nonce ad pt => exact Laws.FrameLength.aeadEnc key nonce ad pt
  | aeadDec key nonce tag ad ct => exact Laws.FrameLength.aeadDec key nonce tag ad ct

theorem encode_isSome (i : Instr) : (encode i).isSome = (i.isCommand && i.wellFormed) :=
  (frameLength_statement i).1

theorem wellFormed_of_encode {i : Instr} {bytes : ByteString} (h : encode i = some bytes) : i.wellFormed = true := by
  have hsome := encode_isSome i
  simp_all

theorem isCommand_of_encode {i : Instr} {bytes : ByteString} (h : encode i = some bytes) : i.isCommand = true := by
  have hsome := encode_isSome i
  simp_all

/-- The header of format L, byte by byte (30_encoding R82). -/
theorem headerL_eq (k : CmdKind) (len : Nat) : headerL k len = opcodeOf k :: 0 :: 0 :: 0 :: leBytes 4 len := by
  cases k <;> rfl

theorem lenField_headerL (k : CmdKind) {n : Nat} (hn : n < 2 ^ 32) (x : ByteString) :
    lenField (headerWord .L (headerL k n ++ x)) = n := by
  have h := lenField_headerWord (opcodeOf k) 0 0 0 (length_leBytes 4 n) x
  rw [leNat_leBytes, Nat.mod_eq_of_lt (by simpa using hn)] at h
  rw [headerL_eq]
  exact h

/-- The frame of a command of format L (30_encoding R82): its header and as many payload bytes as that announces. -/
theorem decode_headerL {k : CmdKind} (hk : formatOf k = .L) {n : Nat} (hn : n < 2 ^ 32) {x : ByteString}
    (hx : x.length = if k = .squeeze then 0 else n) :
    decode (headerL k n ++ x) =
      .command (assemble k (headerWord .L (headerL k n ++ x)) x) (headerL k n ++ x).length := by
  have hpay : payloadBytes k (headerWord .L (headerL k n ++ x)) = x.length := by
    cases k <;> cases hk
    case squeeze => exact hx.symm
    all_goals exact (lenField_headerL _ hn x).trans hx.symm
  simp only [headerL_eq, List.cons_append] at hpay ⊢
  have hdecode := decode_of_zeroField_eq_zero (commandOf_opcodeOf k) (bs := 0 :: 0 :: 0 :: (leBytes 4 n ++ x))
    (by rw [hk, hpay, Format.headerBytes]; simp only [List.length_cons, List.length_append, length_leBytes]; omega)
    (by rw [hk, zeroField_three_bytes (.inr rfl)]; rfl)
  rw [hk] at hdecode
  refine hdecode.trans ?_
  simp [Format.headerBytes, leBytes]

theorem klenField_headerK {klen : Nat} (h : klen < 2 ^ 8) (nlen : Nat) (x : ByteString) :
    klenField (headerWord .K (headerK .initKeyed klen nlen ++ x)) = klen := by
  have hfield := klenField_headerWord (opcodeOf .initKeyed) (BitVec.ofNat 8 klen) (BitVec.ofNat 8 nlen) 0 x
  rwa [BitVec.toNat_ofNat, Nat.mod_eq_of_lt h] at hfield

theorem nlenField_headerK (klen : Nat) {nlen : Nat} (h : nlen < 2 ^ 8) (x : ByteString) :
    nlenField (headerWord .K (headerK .initKeyed klen nlen ++ x)) = nlen := by
  have hfield := nlenField_headerWord (opcodeOf .initKeyed) (BitVec.ofNat 8 klen) (BitVec.ofNat 8 nlen) 0 x
  rwa [BitVec.toNat_ofNat, Nat.mod_eq_of_lt h] at hfield

/-- The frame of INIT_KEYED (30_encoding R83): its header, the key and the nonce. -/
theorem decode_headerK {key nonce : ByteString} (hkey : key.length < 2 ^ 8) (hnonce : nonce.length < 2 ^ 8) :
    decode (headerK .initKeyed key.length nonce.length ++ (key ++ nonce)) =
      .command (.initKeyed key nonce) (headerK .initKeyed key.length nonce.length ++ (key ++ nonce)).length := by
  have hk := klenField_headerK hkey nonce.length (key ++ nonce)
  have hn := nlenField_headerK key.length hnonce (key ++ nonce)
  refine (decode_of_zeroField_eq_zero (k := .initKeyed) rfl ?_ (zeroField_K _ _ _ 0 _)).trans ?_
  · refine (?_ : _ = 4 + (_ + _)).trans (congrArg (4 + ·) (congrArg₂ (· + ·) hk hn).symm)
    rw [← List.length_append]
    exact Nat.add_comm _ 4
  · refine congrArg (Decoded.command · _) ?_
    refine (congrArg (fun n => Instr.initKeyed ((key ++ nonce).take n) ((key ++ nonce).drop n)) hk).trans ?_
    rw [List.take_left, List.drop_left]

/-- Decoding undoes encoding. -/
theorem decode_of_encode {i : Instr} {bytes : ByteString} (h : encode i = some bytes) :
    decode bytes = .command i bytes.length := by
  have hwf := wellFormed_of_encode h
  rw [encode.eq_def, if_pos hwf] at h
  cases i <;> cases h
  case initHash => decide
  case squeezeTag => decide
  case initKeyed key nonce =>
    obtain ⟨hkey, hnonce⟩ : key.length < 2 ^ 8 ∧ nonce.length < 2 ^ 8 := by simpa [Instr.wellFormed] using hwf
    rw [List.append_assoc]
    exact decode_headerK hkey hnonce
  case squeeze l =>
    have hl : l < 2 ^ 32 := by simpa [Instr.wellFormed] using hwf
    have hframe := decode_headerL (k := .squeeze) rfl hl (x := []) rfl
    rw [assemble, lenField_headerL .squeeze hl, List.append_nil] at hframe
    exact hframe
  all_goals exact decode_headerL rfl (by simpa [Instr.wellFormed] using hwf) rfl

/-! ### Encoding undoes decoding -/

/-- The first four bytes of a stream that holds them. -/
theorem exists_eq_cons_of_four_le {op : Byte} {tail : ByteString} (h : 4 ≤ (op :: tail).length) :
    ∃ b1 b2 b3 rest, tail = b1 :: b2 :: b3 :: rest := by
  match tail, h with
  | b1 :: b2 :: b3 :: rest, _ => exact ⟨b1, b2, b3, rest, rfl⟩

/-- The first eight bytes of a stream that holds them, the last four together. -/
theorem exists_eq_cons_of_eight_le {op : Byte} {tail : ByteString} (h : 8 ≤ (op :: tail).length) :
    ∃ b1 b2 b3 len rest, tail = b1 :: b2 :: b3 :: (len ++ rest) ∧ len.length = 4 := by
  match tail, h with
  | b1 :: b2 :: b3 :: l0 :: l1 :: l2 :: l3 :: rest, _ => exact ⟨b1, b2, b3, [l0, l1, l2, l3], rest, rfl, rfl⟩

theorem leBytes_four_leNat {len : ByteString} (h : len.length = 4) : leBytes 4 (leNat len) = len :=
  h ▸ leBytes_leNat len

theorem leNat_lt_of_length_four {len : ByteString} (h : len.length = 4) : leNat len < 2 ^ 32 := by
  have hlt := leNat_lt len
  rw [h] at hlt
  exact hlt.trans_eq (by decide)

theorem three_bytes_eq_zero_of_leNat {b1 b2 b3 : Byte} (h : leNat [b1, b2, b3] = 0) : b1 = 0 ∧ b2 = 0 ∧ b3 = 0 := by
  simpa [leNat_eq_zero_iff] using h

/-- The frame of a command of format N is its header. -/
theorem encode_assemble_N {k : CmdKind} (hk : formatOf k = .N) (w : BitVec 64) (x : ByteString) :
    encode (assemble k w x) = some [opcodeOf k, 0, 0, 0] := by
  cases k <;> cases hk <;> rfl

/-- The frame of a command of format L is its header, with the length bytes as they stood on the stream, and its
payload. -/
theorem encode_assemble_L {k : CmdKind} (hk : formatOf k = .L) {w : BitVec 64} {len payload : ByteString}
    (hlen : len.length = 4) (hw : lenField w = leNat len)
    (hpay : payload.length = if k = .squeeze then 0 else leNat len) :
    encode (assemble k w payload) = some (opcodeOf k :: 0 :: 0 :: 0 :: (len ++ payload)) := by
  have hlt := leNat_lt_of_length_four hlen
  have hbytes := leBytes_four_leNat hlen
  cases k <;> cases hk
  case squeeze =>
    obtain rfl := List.length_eq_zero_iff.1 hpay
    simpa [assemble, encode, Instr.wellFormed, hw, headerL_eq, hbytes] using hlt
  all_goals
    have hpay' : payload.length = leNat len := hpay
    simpa [assemble, encode, Instr.wellFormed, hpay', headerL_eq, hbytes] using hlt

/-- The frame of INIT_KEYED from the two length bytes as they stood on the stream. -/
theorem encode_initKeyed {klen nlen : Byte} {key nonce : ByteString} (hkey : key.length = klen.toNat)
    (hnonce : nonce.length = nlen.toNat) :
    encode (.initKeyed key nonce) = some (opcodeOf .initKeyed :: klen :: nlen :: 0 :: (key ++ nonce)) := by
  have hk := klen.isLt
  have hn := nlen.isLt
  simp [encode, Instr.wellFormed, hkey, hnonce, hk, hn, headerK]

theorem encode_of_decode_N {k : CmdKind} (hk : formatOf k = .N) {tail : ByteString} {i : Instr} {n : Nat}
    (h : decode (opcodeOf k :: tail) = .command i n) : encode i = some ((opcodeOf k :: tail).take n) := by
  obtain ⟨_, _, k', heq, hop, hn, hle, hz, rfl⟩ := decode_eq_command h
  obtain ⟨rfl, rfl⟩ := List.cons.inj heq
  obtain rfl : k = k' := Option.some.inj ((commandOf_opcodeOf k).symm.trans hop)
  have hpay : payloadBytes k (headerWord (formatOf k) (opcodeOf k :: tail)) = 0 := by cases k <;> cases hk <;> rfl
  rw [hpay, hk] at hn
  obtain ⟨b1, b2, b3, rest, rfl⟩ := exists_eq_cons_of_four_le (hn ▸ hle)
  rw [hk, zeroField_three_bytes (.inl rfl)] at hz
  obtain ⟨rfl, rfl, rfl⟩ := three_bytes_eq_zero_of_leNat hz
  rw [encode_assemble_N hk, hn]
  rfl

theorem encode_of_decode_L {k : CmdKind} (hk : formatOf k = .L) {tail : ByteString} {i : Instr} {n : Nat}
    (h : decode (opcodeOf k :: tail) = .command i n) : encode i = some ((opcodeOf k :: tail).take n) := by
  obtain ⟨_, _, k', heq, hop, hn, hle, hz, rfl⟩ := decode_eq_command h
  obtain ⟨rfl, rfl⟩ := List.cons.inj heq
  obtain rfl : k = k' := Option.some.inj ((commandOf_opcodeOf k).symm.trans hop)
  rw [hk] at hn hz ⊢
  obtain ⟨b1, b2, b3, len, rest, rfl, hlen⟩ := exists_eq_cons_of_eight_le (hn ▸ hle |>.trans' (Nat.le_add_right 8 _))
  rw [zeroField_three_bytes (.inr rfl)] at hz
  obtain ⟨rfl, rfl, rfl⟩ := three_bytes_eq_zero_of_leNat hz
  have hw := lenField_headerWord (opcodeOf k) 0 0 0 hlen rest
  have hpay : payloadBytes k (headerWord .L (opcodeOf k :: 0 :: 0 :: 0 :: (len ++ rest))) =
      if k = .squeeze then 0 else leNat len := by
    cases k <;> cases hk
    case squeeze => rfl
    all_goals exact hw
  rw [hpay, Format.headerBytes] at hn
  generalize hm : (if k = .squeeze then 0 else leNat len) = m at hn hpay
  have htake : (opcodeOf k :: 0 :: 0 :: 0 :: (len ++ rest)).take n =
      opcodeOf k :: 0 :: 0 :: 0 :: (len ++ rest.take m) := by
    rw [hn, show 8 + m = len.length + m + 4 by omega]
    simp only [List.take_succ_cons, List.take_length_add_append]
  have hdrop : (opcodeOf k :: 0 :: 0 :: 0 :: (len ++ rest.take m)).drop Format.L.headerBytes = rest.take m := by
    have hheader : Format.L.headerBytes = len.length + 4 := by rw [hlen]; rfl
    rw [hheader]
    simp only [List.drop_succ_cons, List.drop_left]
  have hrest : m ≤ rest.length := by
    rw [hn] at hle
    simp only [List.length_cons, List.length_append, hlen] at hle
    omega
  rw [htake, hdrop]
  exact encode_assemble_L hk hlen hw (by rw [List.length_take_of_le hrest, hm])

theorem encode_of_decode_K {tail : ByteString} {i : Instr} {n : Nat}
    (h : decode (opcodeOf .initKeyed :: tail) = .command i n) :
    encode i = some ((opcodeOf .initKeyed :: tail).take n) := by
  obtain ⟨_, _, k', heq, hop, hn, hle, hz, rfl⟩ := decode_eq_command h
  obtain ⟨rfl, rfl⟩ := List.cons.inj heq
  obtain rfl : .initKeyed = k' := Option.some.inj hop
  obtain ⟨klen, nlen, z, rest, rfl⟩ := exists_eq_cons_of_four_le (hn ▸ hle |>.trans' (Nat.le_add_right 4 _))
  have hk := klenField_headerWord (opcodeOf .initKeyed) klen nlen z rest
  have hnonce := nlenField_headerWord (opcodeOf .initKeyed) klen nlen z rest
  rw [formatOf, zeroField_K] at hz
  obtain rfl : z = 0 := by simpa [leNat_eq_zero_iff] using hz
  rw [formatOf, payloadBytes, hk, hnonce, Format.headerBytes, Nat.add_comm] at hn
  have hrest : klen.toNat + nlen.toNat ≤ rest.length := by
    simp only [List.length_cons] at hle
    omega
  rw [formatOf, assemble, hk, hn]
  simp only [Format.headerBytes, List.take_succ_cons, List.drop_succ_cons, List.drop_zero]
  have hkey : ((rest.take (klen.toNat + nlen.toNat)).take klen.toNat).length = klen.toNat := by simp; omega
  have hnon : ((rest.take (klen.toNat + nlen.toNat)).drop klen.toNat).length = nlen.toNat := by simp; omega
  rw [encode_initKeyed hkey hnon, List.take_append_drop]

/-- Encoding undoes decoding, format by format. -/
theorem encode_of_decode {bs : ByteString} {i : Instr} {n : Nat} (h : decode bs = .command i n) :
    encode i = some (bs.take n) := by
  obtain ⟨op, tail, k, rfl, hop, -⟩ := decode_eq_command h
  obtain rfl := opcodeOf_commandOf hop
  cases hk : formatOf k with
  | N => exact encode_of_decode_N hk h
  | L => exact encode_of_decode_L hk h
  | K =>
    obtain rfl : k = .initKeyed := by cases k <;> cases hk; rfl
    exact encode_of_decode_K h

/-! ### Streams the decoder waits on -/

theorem step_of_incomplete {s : State} (h : decode s.cmdIn = .incomplete) : step s = .next s := by
  simp [step, fetch, h]

/-- A frame cut short is waited for: were it complete, the rest of the frame would not be part of it. -/
theorem decode_take_of_encode {i : Instr} {bytes : ByteString} {n : Nat} (h : encode i = some bytes)
    (hn : n < bytes.length) : decode (bytes.take n) = .incomplete := by
  by_contra hdecode
  have hwhole := decode_append (bytes.drop n) hdecode
  rw [List.take_append_drop, decode_of_encode h] at hwhole
  have hle := (decode_command_length hwhole.symm).2
  rw [List.length_take] at hle
  omega

theorem endsInsideFrame_initKeyed_iff (tail : ByteString) : EndsInsideFrame (opcodeOf .initKeyed :: tail) ↔
    (opcodeOf .initKeyed :: tail).length < 4 ∨ (opcodeOf .initKeyed :: tail).length < 4 +
      (klenField (headerWord .K (opcodeOf .initKeyed :: tail)) +
        nlenField (headerWord .K (opcodeOf .initKeyed :: tail))) := by
  by_cases h : (opcodeOf .initKeyed :: tail).length < 4
  · exact iff_of_true (by simp_all [EndsInsideFrame, opcodeOf]) (.inl h)
  · obtain ⟨klen, nlen, z, rest, rfl⟩ := exists_eq_cons_of_four_le (Nat.le_of_not_lt h)
    rw [klenField_headerWord, nlenField_headerWord]
    simp [EndsInsideFrame, opcodeOf, Nat.add_assoc]

/-- The commands of format L with a payload. -/
theorem endsInsideFrame_L_iff {k : CmdKind} (hk : formatOf k = .L) (hne : k ≠ .squeeze) (tail : ByteString) :
    EndsInsideFrame (opcodeOf k :: tail) ↔
      (opcodeOf k :: tail).length < 8 ∨
        (opcodeOf k :: tail).length < 8 + lenField (headerWord .L (opcodeOf k :: tail)) := by
  have hends : EndsInsideFrame (opcodeOf k :: tail) ↔ (opcodeOf k :: tail).length < 8 ∨
      (opcodeOf k :: tail).length < 8 + leNat (((opcodeOf k :: tail).drop 4).take 4) := by
    cases k <;> cases hk
    case squeeze => exact absurd rfl hne
    all_goals simp [EndsInsideFrame, opcodeOf]
  rw [hends]
  by_cases h : (opcodeOf k :: tail).length < 8
  · exact iff_of_true (.inl h) (.inl h)
  · obtain ⟨b1, b2, b3, len, rest, rfl, hlen⟩ := exists_eq_cons_of_eight_le (Nat.le_of_not_lt h)
    have htake : (len ++ rest).take 4 = len := by rw [← hlen, List.take_left]
    rw [lenField_headerWord (opcodeOf k) b1 b2 b3 hlen]
    simp only [List.drop_succ_cons, List.drop_zero, htake]

/-- On a known opcode `EndsInsideFrame` says that the header or the payload it announces is missing. -/
theorem endsInsideFrame_opcode_iff (k : CmdKind) (tail : ByteString) : EndsInsideFrame (opcodeOf k :: tail) ↔
    (opcodeOf k :: tail).length < (formatOf k).headerBytes ∨
      (opcodeOf k :: tail).length < (formatOf k).headerBytes +
        payloadBytes k (headerWord (formatOf k) (opcodeOf k :: tail)) := by
  cases k
  case initHash => simp [EndsInsideFrame, opcodeOf, formatOf, Format.headerBytes, payloadBytes]
  case squeezeTag => simp [EndsInsideFrame, opcodeOf, formatOf, Format.headerBytes, payloadBytes]
  case squeeze => simp [EndsInsideFrame, opcodeOf, formatOf, Format.headerBytes, payloadBytes]
  case initKeyed => exact endsInsideFrame_initKeyed_iff tail
  case absorb => exact endsInsideFrame_L_iff rfl (by decide : CmdKind.absorb ≠ .squeeze) tail
  case encrypt => exact endsInsideFrame_L_iff rfl (by decide : CmdKind.encrypt ≠ .squeeze) tail
  case decrypt => exact endsInsideFrame_L_iff rfl (by decide : CmdKind.decrypt ≠ .squeeze) tail
  case verifyTag => exact endsInsideFrame_L_iff rfl (by decide : CmdKind.verifyTag ≠ .squeeze) tail

theorem endsInsideFrame_reserved_iff {op : Byte} (hop : commandOf op = none) (tail : ByteString) :
    EndsInsideFrame (op :: tail) ↔ (op :: tail).length < 4 := by
  have hknown : ∀ k, op ≠ opcodeOf k := by
    rintro k rfl
    simp at hop
  have h1 : op ≠ 0x01 := hknown .initHash
  have h2 : op ≠ 0x02 := hknown .initKeyed
  have h3 : op ≠ 0x03 := hknown .absorb
  have h4 : op ≠ 0x04 := hknown .squeeze
  have h5 : op ≠ 0x05 := hknown .encrypt
  have h6 : op ≠ 0x06 := hknown .decrypt
  have h7 : op ≠ 0x07 := hknown .squeezeTag
  have h8 : op ≠ 0x08 := hknown .verifyTag
  have hres := (commandOf_eq_none_iff op).1 hop
  simp_all [EndsInsideFrame]

theorem endsInsideFrame_iff (bs : ByteString) : EndsInsideFrame bs ↔ decode bs = .incomplete := by
  cases bs with
  | nil => simp [EndsInsideFrame, decode]
  | cons op tail =>
    cases hop : commandOf op with
    | none => rw [endsInsideFrame_reserved_iff hop, decode_eq_incomplete_iff_of_reserved hop]
    | some k =>
      obtain rfl := opcodeOf_commandOf hop
      rw [endsInsideFrame_opcode_iff, decode_eq_incomplete_iff_of_commandOf hop]

/-! ### The obligations -/

/-- Settles O1: the frame's own bytes are decoded to the command, and the bytes that follow do not change that. -/
theorem decodeOfEncodeIsTheCommand : Obligations.DecodeOfEncodeIsTheCommand := by
  intro i hcmd hwf
  have hsome : (encode i).isSome = true := by rw [encode_isSome, hcmd, hwf]; rfl
  obtain ⟨bytes, hbytes⟩ := Option.isSome_iff_exists.1 hsome
  refine ⟨bytes, hbytes, fun rest => ?_⟩
  have hdecode := decode_of_encode hbytes
  rw [decode_append rest (by simp [hdecode]), hdecode]

/-- Settles O2. -/
theorem encodeOfDecodeIsTheFrame : Obligations.EncodeOfDecodeIsTheFrame :=
  fun _ _ _ => encode_of_decode

/-- Settles O4: `EndsInsideFrame` is the decoder's verdict `incomplete`, which frames cut short have. -/
theorem incompleteFrameWaits : Obligations.IncompleteFrameWaits := by
  refine ⟨endsInsideFrame_iff, fun s h => step_of_incomplete ((endsInsideFrame_iff _).1 h), ?_⟩
  intro i bytes n s henc hn hin
  exact step_of_incomplete (hin ▸ decode_take_of_encode henc hn)

/-- Settles O5: the decoder run on each frame. -/
theorem specFramesDecode : Obligations.SpecFramesDecode := by
  refine ⟨?_, ?_, ?_, ?_, ?_, ?_⟩ <;> decide

/-- Settles O6. -/
theorem onlyCommandsHaveFrames : Obligations.OnlyCommandsHaveFrames := encode_isSome

end Sys2Proof.Machine
end

section
/-! PROOFS of 30_encoding R89: what each command answers, with the output of the loops said once, chunk by chunk and
block by block. -/

namespace Sys2Proof.Machine

/-! ### What the duplex primitives look at -/

/-- The two states agree in all that UP, DOWN, DOWN_OVR and LEAD look at. -/
structure DuplexAgree (s t : State) : Prop where
  lanes : s.lanes = t.lanes
  phase : s.phase = t.phase
  mode : s.mode = t.mode

section
variable {s t : State}

theorem DuplexAgree.symm (h : DuplexAgree s t) : DuplexAgree t s := ⟨h.lanes.symm, h.phase.symm, h.mode.symm⟩

theorem DuplexAgree.trans {u : State} (h : DuplexAgree s t) (h' : DuplexAgree t u) : DuplexAgree s u :=
  ⟨h.lanes.trans h'.lanes, h.phase.trans h'.phase, h.mode.trans h'.mode⟩

theorem DuplexAgree.lead_eq (h : DuplexAgree s t) (n : Nat) : lead n s = lead n t := by
  rw [lead, lead, h.lanes]

theorem DuplexAgree.up (h : DuplexAgree s t) (cu : Byte) : DuplexAgree (up cu s) (up cu t) :=
  ⟨by simp [h.lanes, h.mode], by simp, by simp [h.mode]⟩

theorem DuplexAgree.down (h : DuplexAgree s t) (x : ByteString) (cd : Byte) :
    DuplexAgree (down x cd s) (down x cd t) :=
  ⟨by simp [h.lanes, h.mode], by simp, by simp [h.mode]⟩

theorem DuplexAgree.downOvr (h : DuplexAgree s t) (x : ByteString) (cd : Byte) :
    DuplexAgree (downOvr x cd s) (downOvr x cd t) :=
  ⟨by simp [h.lanes], by simp, by simp [h.mode]⟩

theorem duplexAgree_beginCommand (s : State) : DuplexAgree s s.beginCommand := ⟨rfl, rfl, rfl⟩

theorem duplexAgree_emitLead (n : Nat) (s : State) : DuplexAgree (emitLead n s) s :=
  ⟨emitLead_lanes s n, emitLead_phase s n, emitLead_mode s n⟩

end

/-! ### The blocks of SQUEEZE (42_duplex_commands R154) -/

/-- From one output block of SQUEEZE to the next. -/
def nextBlock (s : State) : State := up cuBlank (down [] cdBlank s)

theorem DuplexAgree.nextBlock {s t : State} (h : DuplexAgree s t) : DuplexAgree (nextBlock s) (nextBlock t) :=
  (h.down [] cdBlank).up cuBlank

/-- The leading bytes of `n` output blocks, the first one in `s`. -/
def squeezeStream : (n : Nat) → State → ByteString
  | 0, _ => []
  | n + 1, s => lead rHash s ++ squeezeStream n (nextBlock s)

@[simp] theorem length_squeezeStream (n : Nat) (s : State) : (squeezeStream n s).length = 16 * n := by
  induction n generalizing s with
  | zero => rfl
  | succ n ih => rw [squeezeStream, List.length_append, length_lead, ih, rHash]; omega

theorem squeezeStream_congr {s t : State} (h : DuplexAgree s t) (n : Nat) :
    squeezeStream n s = squeezeStream n t := by
  induction n generalizing s t with
  | zero => rfl
  | succ n ih => rw [squeezeStream, squeezeStream, h.lead_eq, ih h.nextBlock]

/-- More blocks begin with the fewer. -/
theorem squeezeStream_prefix {m n : Nat} (h : m ≤ n) (s : State) : squeezeStream m s <+: squeezeStream n s := by
  induction m generalizing n s with
  | zero => exact List.nil_prefix
  | succ m ih =>
    obtain ⟨n, rfl⟩ : ∃ k, n = k + 1 := ⟨n - 1, by omega⟩
    exact (List.prefix_append_right_inj _).2 (ih (by omega) _)

/-- As many bytes as `m` blocks hold are the same however many blocks follow. -/
theorem take_squeezeStream {l m n : Nat} (hm : l ≤ 16 * m) (hn : l ≤ 16 * n) (s : State) :
    (squeezeStream m s).take l = (squeezeStream n s).take l := by
  wlog h : m ≤ n generalizing m n
  · exact (this hn hm (by omega)).symm
  · obtain ⟨z, hz⟩ := squeezeStream_prefix h s
    rw [← hz, List.take_append_of_le_length (by simpa using hm)]

/-- The first `l` bytes, with those of the first block read on their own. -/
theorem take_squeezeStream_succ (l n : Nat) (s : State) : (squeezeStream (n + 1) s).take l =
    lead (min l rHash) s ++ (squeezeStream n (nextBlock s)).take (l - min l rHash) := by
  rw [squeezeStream, List.take_append, take_lead, length_lead,
    show l - min l rHash = l - rHash by omega]

theorem squeezeBlocks_respOut {k l : Nat} (h : l ≤ 16 * k) (s : State) :
    (squeezeBlocks k l s).respOut = s.respOut ++ (squeezeStream k (nextBlock s)).take l := by
  induction k generalizing l s with
  | zero =>
    obtain rfl : l = 0 := by omega
    simp [squeezeBlocks]
  | succ k ih =>
    have hnext := (duplexAgree_emitLead (min l rHash) (nextBlock s)).nextBlock
    have hkept : (nextBlock s).respOut = s.respOut := by simp [nextBlock]
    rw [squeezeBlocks, ← nextBlock, ih (by rw [rHash]; omega), squeezeStream_congr hnext, take_squeezeStream_succ,
      emitLead_respOut, hkept, List.append_assoc]

/-- SQUEEZE answers the first `l` bytes of its blocks, the first of which is read after UP(0x40). -/
theorem squeeze_respOut (p : Profile) {l n : Nat} (h : l ≤ 16 * n) (s : State) :
    (complete (squeezeBody p l) s).respOut =
      s.respOut ++ statusOk :: (squeezeStream n (up cuSqueeze s)).take l := by
  have h16 : rHash = 16 := rfl
  let u := up cuSqueeze s.beginCommand
  have hagree : DuplexAgree (up cuSqueeze s) u := (duplexAgree_beginCommand s).up cuSqueeze
  have hnext : DuplexAgree (nextBlock (emitLead (min l rHash) u)) (nextBlock u) := (duplexAgree_emitLead _ u).nextBlock
  have hk : l - min l rHash ≤ 16 * ceilDiv (l - min l rHash) rHash := by rw [ceilDiv, h16]; omega
  have hblocks := squeezeBlocks_respOut hk (emitLead (min l rHash) u)
  rw [squeezeStream_congr hnext, emitLead_respOut, List.append_assoc, ← take_squeezeStream_succ,
    take_squeezeStream (by omega) h, ← squeezeStream_congr hagree] at hblocks
  exact hblocks.trans (List.append_assoc _ _ _)

/-! ### The chunks of ENCRYPT and DECRYPT (42_duplex_commands R155, R156) -/

/-- One round of the loop: the chunk staged and handled, the staging buffer empty again. -/
def cryptStep (p : Profile) (d : Direction) (c : ByteString) (s : State) : State :=
  (cryptChunk p d (s.load c)).nextChunk

/-- The output chunks of the loop over `cs`. -/
def cryptOutputs (p : Profile) (d : Direction) : List ByteString → State → List ByteString
  | [], _ => []
  | c :: cs, s => encryptedChunk c s :: cryptOutputs p d cs (cryptStep p d c s)

theorem cryptStep_respOut (p : Profile) (d : Direction) (c : ByteString) (s : State) :
    (cryptStep p d c s).respOut = s.respOut ++ encryptedChunk c s :=
  cryptChunk_respOut (s.load c) p d

theorem cryptLoop_respOut (p : Profile) (d : Direction) (cs : List ByteString) (s : State) :
    (eachChunk (cryptChunk p d) cs s).respOut = s.respOut ++ (cryptOutputs p d cs s).flatten := by
  induction cs generalizing s with
  | nil => simp [eachChunk, cryptOutputs]
  | cons c cs ih =>
    rw [eachChunk, ← cryptStep, ih, cryptStep_respOut, cryptOutputs, List.flatten_cons, List.append_assoc]

/-- Every output chunk is as long as its input chunk. -/
theorem map_length_cryptOutputs (p : Profile) (d : Direction) (cs : List ByteString) (s : State) :
    (cryptOutputs p d cs s).map List.length = cs.map List.length := by
  induction cs generalizing s with
  | nil => rfl
  | cons c cs ih => rw [cryptOutputs, List.map_cons, ih, length_encryptedChunk, List.map_cons]

theorem length_flatten_cryptOutputs (p : Profile) (d : Direction) {r : Nat} (hr : 0 < r) (x : ByteString) (s : State) :
    (cryptOutputs p d (chunks x r) s).flatten.length = x.length := by
  rw [List.length_flatten, map_length_cryptOutputs, ← List.length_flatten, flatten_chunks x hr]

theorem encrypt_respOut (p : Profile) (x : ByteString) (s : State) :
    (complete (encryptBody p x) s).respOut =
      s.respOut ++ statusOk :: (cryptOutputs p .encrypt (chunks x p.rKcrypt) s.beginCommand).flatten :=
  (cryptLoop_respOut p .encrypt _ _).trans (List.append_assoc _ _ _)

theorem decrypt_respOut (p : Profile) (x : ByteString) (s : State) :
    (complete (decryptBody p x) s).respOut =
      s.respOut ++ statusOk :: (cryptOutputs p .decrypt (chunks x p.rKcrypt) s.beginCommand).flatten :=
  (cryptLoop_respOut p .decrypt _ _).trans (List.append_assoc _ _ _)

/-! ### The other commands -/

theorem squeezeTag_respOut (s : State) :
    (complete squeezeTagBody s).respOut = s.respOut ++ statusOk :: tagOf s :=
  List.append_assoc _ _ _

theorem verifyTag_respOut (t : ByteString) (s : State) :
    (complete (verifyTagBody t) s).respOut =
      s.respOut ++ [statusOk, validByte (validOf (complete (verifyTagBody t) s).acc)] :=
  List.append_assoc _ _ _

/-- The response of a completed command (30_encoding R89). -/
theorem commandBody_respOut {i : Instr} {k : CmdKind} (hk : i.command? = some k) (s : State) :
    ∃ payload : ByteString, (complete (commandBody i) s).respOut = s.respOut ++ statusOk :: payload ∧
      payload.length = responseBytes i := by
  cases i <;> cases hk
  case initHash => exact ⟨[], initHash_respOut s, rfl⟩
  case initKeyed key nonce => exact ⟨[], initKeyed_respOut s key nonce, rfl⟩
  case absorb x => exact ⟨[], absorb_respOut s hardware x, rfl⟩
  case squeeze l =>
    have hl : l ≤ 16 * l := by omega
    refine ⟨_, squeeze_respOut hardware hl s, ?_⟩
    rw [List.length_take_of_le (by rwa [length_squeezeStream])]
    rfl
  case encrypt x => exact ⟨_, encrypt_respOut hardware x s, length_flatten_cryptOutputs _ _ (by decide) x _⟩
  case decrypt x => exact ⟨_, decrypt_respOut hardware x s, length_flatten_cryptOutputs _ _ (by decide) x _⟩
  case squeezeTag => exact ⟨_, squeezeTag_respOut s, length_tagOf s⟩
  case verifyTag t => exact ⟨_, verifyTag_respOut t s, rfl⟩

/-! ### The obligation -/

theorem raised_status_ne_statusOk (f : Raised) : f.status ≠ statusOk := by cases f <;> decide

/-- Settles O12: an accepted command answers 0x00 and its payload, any other the fault code alone. -/
theorem everyCommandAnswersOneResponse : Obligations.EveryCommandAnswersOneResponse := by
  intro i s hcmd
  obtain ⟨k, hk⟩ := Option.isSome_iff_exists.1 hcmd
  by_cases h : CommandAccepted i k s
  · obtain ⟨payload, hresp, hlen⟩ := commandBody_respOut hk s
    exact ⟨_, statusOk, payload, exec_of_commandAccepted hk h, hresp, fun _ => hlen, fun hne => absurd rfl hne⟩
  · obtain ⟨f, hf⟩ := exec_of_not_commandAccepted hk h
    exact ⟨_, f.status, [], hf, raise_respOut s f, fun h0 => absurd h0 (raised_status_ne_statusOk f),
      fun _ => ⟨rfl, f, rfl⟩⟩

end Sys2Proof.Machine
end

section
/-! PROOFS of 60_exceptions R190, R192, R195, R196 and R199: the fault a command meets as one function of the command,
ERR and SEQ, and from that what each command does. -/

namespace Sys2Proof.Machine

/-! ### The fault a command meets -/

/-- The first fault that applies to the command `i`, of kind `k`, in the order of 60_exceptions R196. -/
def commandFault (i : Instr) (k : CmdKind) (err : Bool) (q : Seq) : Option Raised :=
  if k = .initHash ∨ k = .initKeyed then (if argumentsOk i = true then none else some .invalidArgument)
  else if err = true then some .sequenceError
  else if wrongMode q k = true then some .modeError
  else if nextSeq q k = none then some .sequenceError
  else if argumentsOk i = true then none else some .invalidArgument

theorem commandFault_initHash (err : Bool) (q : Seq) : commandFault .initHash .initHash err q = none := rfl

theorem commandFault_initKeyed (key nonce : ByteString) (err : Bool) (q : Seq) :
    commandFault (.initKeyed key nonce) .initKeyed err q =
      if argumentsOk (.initKeyed key nonce) = true then none else some .invalidArgument := rfl

/-- For a command other than the two INITs the prologue comes first, then the length check. -/
theorem commandFault_of_not_init {k : CmdKind} (hHash : k ≠ .initHash) (hKeyed : k ≠ .initKeyed) (i : Instr)
    (s : State) : commandFault i k s.err s.seq =
      if prologueFault k s = none then (if argumentsOk i = true then none else some .invalidArgument)
      else prologueFault k s := by
  have hlisted := permitted_and_not_wrongMode_iff_nextSeq hHash hKeyed s.seq
  unfold commandFault prologueFault
  rw [if_neg (by simp [hHash, hKeyed])]
  cases herr : s.err
  case true => simp
  case false =>
    cases hmode : wrongMode s.seq k
    case true => simp
    case false =>
      cases hper : permitted s.seq k <;> simp_all

/-- Only INIT_KEYED and VERIFY_TAG check the lengths of their operands. -/
theorem exec_verifyTag_of_not_argumentsOk {i : Instr} {k : CmdKind} {s : State} (hk : i.command? = some k)
    (hKeyed : k ≠ .initKeyed) (hpro : prologueFault k s = none) (h : argumentsOk i = false) :
    exec i s = .next (raise .invalidArgument s) := by
  cases i <;> cases hk
  case initKeyed key nonce => exact absurd rfl hKeyed
  case verifyTag t =>
    have hlen : t.length ≠ tagLen := by simpa [argumentsOk, tagLen] using h
    exact congrArg Host.Outcome.next ((verifyTagCmd_of_prologue hpro t).trans (if_neg hlen))
  all_goals simp [argumentsOk] at h

/-- A command that meets a fault raises it and does nothing else. -/
theorem exec_of_commandFault {i : Instr} {k : CmdKind} {s : State} {f : Raised} (hk : i.command? = some k)
    (h : commandFault i k s.err s.seq = some f) : exec i s = .next (raise f s) := by
  by_cases hHash : k = .initHash
  · subst hHash
    cases i <;> cases hk
    simp [commandFault_initHash] at h
  by_cases hKeyed : k = .initKeyed
  · subst hKeyed
    cases i <;> cases hk
    rw [commandFault_initKeyed] at h
    obtain ⟨hargs, ⟨⟩⟩ := Option.ite_none_left_eq_some.1 h
    exact exec_initKeyed_of_not_argumentsOk (by simpa using hargs) s
  rw [commandFault_of_not_init hHash hKeyed] at h
  split at h
  case isTrue hpro =>
    obtain ⟨hargs, ⟨⟩⟩ := Option.ite_none_left_eq_some.1 h
    exact exec_verifyTag_of_not_argumentsOk hk hKeyed hpro (by simpa using hargs)
  case isFalse => exact exec_of_prologueFault hk hHash hKeyed h

/-- The commands that meet no fault are the accepted ones. -/
theorem commandFault_eq_none_iff {i : Instr} {k : CmdKind} {s : State} (hk : i.command? = some k) :
    commandFault i k s.err s.seq = none ↔ CommandAccepted i k s := by
  constructor
  · intro h
    by_cases hHash : k = .initHash
    · subst hHash
      cases i <;> cases hk
      exact commandAccepted_initHash s
    by_cases hKeyed : k = .initKeyed
    · subst hKeyed
      cases i <;> cases hk
      rw [commandFault_initKeyed] at h
      exact commandAccepted_of_clearsErr rfl (.inr ⟨rfl, by simpa using h⟩) s
    rw [commandFault_of_not_init hHash hKeyed] at h
    rw [commandAccepted_iff_prologue hHash hKeyed]
    split at h
    case isTrue hpro => exact ⟨by simpa using h, hpro⟩
    case isFalse hpro => exact absurd h hpro
  · intro h
    by_contra hne
    obtain ⟨f, hf⟩ := Option.ne_none_iff_exists'.1 hne
    have hraise := (exec_of_commandAccepted hk h).symm.trans (exec_of_commandFault hk hf)
    have herr := congrArg State.err (Host.Outcome.next.inj hraise)
    rw [commandBody_err hk h, raise_err] at herr
    exact Bool.false_ne_true herr

/-- A command that meets none completes its body. -/
theorem exec_of_commandFault_eq_none {i : Instr} {k : CmdKind} {s : State} (hk : i.command? = some k)
    (h : commandFault i k s.err s.seq = none) : exec i s = .next (complete (commandBody i) s) :=
  exec_of_commandAccepted hk ((commandFault_eq_none_iff hk).1 h)

/-- Where R196 lets a command through, it answers 0x00 and leaves ERR = 0 (60_exceptions R199). -/
theorem exec_succeeds_of_commandFault_eq_none {i : Instr} {k : CmdKind} {s : State} (hk : i.command? = some k)
    (h : commandFault i k s.err s.seq = none) :
    ∃ t payload, exec i s = .next t ∧ t.respOut = s.respOut ++ 0x00 :: payload ∧ t.err = false := by
  obtain ⟨payload, hresp, -⟩ := commandBody_respOut hk s
  exact ⟨_, payload, exec_of_commandFault_eq_none hk h, hresp, commandBody_err hk ((commandFault_eq_none_iff hk).1 h)⟩

/-- InvalidArgument is raised for the lengths of R192 only, and by VERIFY_TAG only past its prologue. -/
theorem commandFault_eq_invalidArgument_iff {i : Instr} {k : CmdKind} (hk : i.command? = some k) (s : State) :
    commandFault i k s.err s.seq = some .invalidArgument ↔
      (∃ key nonce, i = .initKeyed key nonce ∧ ¬ (key.length = 16 ∧ nonce.length = 16)) ∨
      (∃ tag, i = .verifyTag tag ∧ tag.length ≠ 16 ∧ s.err = false ∧ s.seq = .kCrypt) := by
  have hpro : ∀ {k : CmdKind}, prologueFault k s ≠ some .invalidArgument := by
    intro k
    unfold prologueFault
    split_ifs <;> simp
  cases i <;> cases hk
  case initHash => simp [commandFault_initHash]
  case initKeyed key nonce => simp [commandFault_initKeyed, argumentsOk]
  case verifyTag t =>
    rw [commandFault_of_not_init (by decide) (by decide)]
    by_cases h : prologueFault .verifyTag s = none
    · obtain ⟨herr, hseq⟩ := (prologue_verifyTag s).1 h
      simp [h, herr, hseq, argumentsOk]
    · have hnot := fun hs => h ((prologue_verifyTag s).2 hs)
      rw [if_neg h]
      exact iff_of_false hpro (by simpa using fun _ herr hseq => hnot ⟨herr, hseq⟩)
  all_goals
    rw [commandFault_of_not_init (by decide) (by decide)]
    simp [argumentsOk, hpro]

/-! ### The obligations -/

/-- Settles O46. -/
theorem raiseWritesOnlyTheRecord : Obligations.RaiseWritesOnlyTheRecord := by
  intro f s
  refine ⟨raise_spec s f, ?_, ?_⟩ <;> cases f <;> rfl

/-- Settles O47: the chain of conditions is that of `commandFault`. -/
theorem commandsFaultByPriority : Obligations.CommandsFaultByPriority := by
  intro i k s hk
  have hmode := wrongMode_iff s.seq k
  split_ifs with hinit hargs herr hwrong hrow hargs
  · exact exec_succeeds_of_commandFault_eq_none hk (by simp [commandFault, hinit, hargs])
  · exact exec_of_commandFault hk (by simp [commandFault, hinit, hargs])
  · exact exec_of_commandFault hk (by simp [commandFault, hinit, herr])
  · exact exec_of_commandFault hk (by simp [commandFault, hinit, herr, hmode.2 hwrong])
  · exact exec_of_commandFault hk (by simp [commandFault, hinit, herr, mt hmode.1 hwrong, hrow])
  · exact exec_of_commandFault hk (by simp [commandFault, hinit, herr, mt hmode.1 hwrong, hrow, hargs])
  · exact exec_succeeds_of_commandFault_eq_none hk
      (by simpa [commandFault, hinit, herr, mt hmode.1 hwrong, hrow] using hargs)

/-- Settles O48: a response of 0x02 alone is that of a raised InvalidArgument, which keeps all `SameInstance` lists. -/
theorem invalidArgumentCases : Obligations.InvalidArgumentCases := by
  intro i s t hcmd hexec
  obtain ⟨k, hk⟩ := Option.isSome_iff_exists.1 hcmd
  rw [← commandFault_eq_invalidArgument_iff hk]
  cases hf : commandFault i k s.err s.seq with
  | none =>
    obtain ⟨payload, hresp, -⟩ := commandBody_respOut hk s
    obtain rfl := Host.Outcome.next.inj ((exec_of_commandFault_eq_none hk hf).symm.trans hexec)
    simp [hresp, statusOk]
  | some f =>
    obtain rfl := Host.Outcome.next.inj ((exec_of_commandFault hk hf).symm.trans hexec)
    obtain ⟨hlanes, hphase, hmode, hseq, hacc, hvalid⟩ := raise_sameInstance s f
    refine ⟨?_, fun _ => ⟨hlanes, hphase, hmode, hseq, hacc, hvalid⟩⟩
    cases f <;> simp [Raised.status]

end Sys2Proof.Machine
end

section
/-! PROOFS about the step: that it answers a next state and looks at its own frame only (20_memory R61, R62), that it
keeps the invariant of the states between commands (10_state R24, R27, R30, R31, R35), and that stepping through the
frames of an expansion is the pseudo-command (30_encoding R92). -/

namespace Sys2Proof.Machine

/-! ### One step -/

theorem step_of_command {s : State} {i : Instr} {n : Nat} (h : decode s.cmdIn = .command i n) :
    step s = exec i (s.consume n) := by
  simp [step, fetch, h]

theorem step_of_illegal {s : State} {why : IllegalHeader} {n : Nat} (h : decode s.cmdIn = .illegal why n) :
    step s = .next (raise .illegalCommand (s.consume n)) := by
  simp [step, fetch, h, rejectFrame]

theorem step_next (s : State) : ∃ t, step s = .next t := by
  cases h : decode s.cmdIn with
  | command i n =>
    obtain ⟨t, ht⟩ := exec_command_next (decode_isCommand h) (s.consume n)
    exact ⟨t, (step_of_command h).trans ht⟩
  | illegal why n => exact ⟨_, step_of_illegal h⟩
  | incomplete => exact ⟨s, step_of_incomplete h⟩

/-! ### A command looks at no stream -/

/-- A command does the same whatever stands in the streams before it and on the command stream behind it. -/
theorem exec_rebase {i : Instr} (hcmd : i.isCommand = true) {s t : State} (h : exec i s = .next t)
    (pre cmd : ByteString) (old : List Prim) (k : Nat) :
    exec i (s.rebase pre cmd old k) = .next (t.rebase pre cmd old k) := by
  cases i <;> simp only [Instr.isCommand, Instr.command?, Option.isSome_none, Bool.false_eq_true] at hcmd <;>
    obtain rfl := Host.Outcome.next.inj h
  case initHash => exact congrArg Host.Outcome.next (initHashCmd_rebase s pre cmd old k)
  case initKeyed key nonce => exact congrArg Host.Outcome.next (initKeyedCmd_rebase s pre cmd old k key nonce)
  case absorb x => exact congrArg Host.Outcome.next (absorbCmd_rebase s pre cmd old k hardware x)
  case squeeze l => exact congrArg Host.Outcome.next (squeezeCmd_rebase s pre cmd old k hardware l)
  case encrypt x => exact congrArg Host.Outcome.next (encryptCmd_rebase s pre cmd old k hardware x)
  case decrypt x => exact congrArg Host.Outcome.next (decryptCmd_rebase s pre cmd old k hardware x)
  case squeezeTag => exact congrArg Host.Outcome.next (squeezeTagCmd_rebase s pre cmd old k)
  case verifyTag x => exact congrArg Host.Outcome.next (verifyTagCmd_rebase s pre cmd old k x)

/-- `s` with another command stream. -/
def State.withCmd (cmd : ByteString) (s : State) : State := { s with cmdIn := cmd }

theorem rebase_nil (cmd : ByteString) (s : State) : s.rebase [] cmd [] s.resets = s.withCmd cmd := rfl

/-- A command neither takes bytes from the command stream nor resets. -/
theorem exec_command_keeps {i : Instr} (hcmd : i.isCommand = true) {s t : State} (h : exec i s = .next t) :
    t.cmdIn = s.cmdIn ∧ t.resets = s.resets := by
  have hsame : exec i s = .next (t.rebase [] s.cmdIn [] s.resets) := exec_rebase hcmd h [] s.cmdIn [] s.resets
  have ht : t = t.rebase [] s.cmdIn [] s.resets := Host.Outcome.next.inj (h.symm.trans hsame)
  have hcmdIn := congrArg State.cmdIn ht
  have hresets := congrArg State.resets ht
  exact ⟨hcmdIn, hresets⟩

theorem exec_withCmd {i : Instr} (hcmd : i.isCommand = true) {s t : State} (h : exec i s = .next t)
    (cmd : ByteString) : exec i (s.withCmd cmd) = .next (t.withCmd cmd) := by
  have hbase := exec_rebase hcmd h [] cmd [] s.resets
  rwa [rebase_nil, ← (exec_command_keeps hcmd h).2, rebase_nil] at hbase

theorem raise_withCmd (f : Raised) (cmd : ByteString) (s : State) :
    raise f (s.withCmd cmd) = (raise f s).withCmd cmd := by
  rw [raise_spec, raise_spec]
  rfl

/-! ### Stepping through frames -/

/-- A step at the front of a frame runs its command and leaves the bytes behind the frame. -/
theorem step_of_frame {i : Instr} {frame rest : ByteString} (henc : encode i = some frame) {s : State}
    (hin : s.cmdIn = frame ++ rest) : step s = exec i (s.withCmd rest) := by
  have hframe := decode_of_encode henc
  have hdecode : decode s.cmdIn = .command i frame.length := by
    rw [hin, decode_append rest (by simp [hframe]), hframe]
  rw [step_of_command hdecode, State.consume, hin, List.drop_left]
  rfl

theorem core_run_succ {s t : State} (h : step s = .next t) (n : Nat) : core.run (n + 1) s = core.run n t := by
  have hstep : core.step s = .next t := h
  simp only [Host.Core.run, hstep]

/-- Stepping through the frames of a list of commands runs them one after another. -/
theorem run_frames {is : List Instr} {frames : List ByteString} (henc : is.map encode = frames.map some)
    {rest : ByteString} {s : State} (hin : s.cmdIn = frames.flatten ++ rest) :
    ∃ t : State, core.run is.length s = .next t ∧ execAll is (s.withCmd rest) = .next t := by
  induction is generalizing frames s with
  | nil =>
    obtain rfl : frames = [] := by simpa using henc.symm
    refine ⟨s, rfl, ?_⟩
    rw [List.flatten_nil, List.nil_append] at hin
    rw [← hin]
    rfl
  | cons i is ih =>
    obtain ⟨frame, frames, rfl, hframe, hframes⟩ := List.map_eq_cons_iff.1 henc.symm
    have hcmd := isCommand_of_encode hframe.symm
    rw [List.flatten_cons, List.append_assoc] at hin
    obtain ⟨t, ht⟩ := exec_command_next hcmd (s.withCmd (frames.flatten ++ rest))
    have hstep : step s = .next t := (step_of_frame hframe.symm hin).trans ht
    obtain ⟨u, hrun, hall⟩ := ih hframes.symm (s := t) (exec_command_keeps hcmd ht).1
    refine ⟨u, ?_, ?_⟩
    · exact (core_run_succ hstep is.length).trans hrun
    · exact (execAll_cons_next (exec_withCmd hcmd ht rest) is).trans hall

/-- With legal lengths a pseudo-command runs its expansion. -/
theorem exec_eq_execAll_expansion {i : Instr} (hne : expansion i ≠ []) (hlen : hostLengthsOk i = true) (s : State) :
    exec i s = execAll (expansion i) s := by
  cases i <;> simp only [expansion, ne_eq, not_true_eq_false] at hne
  case hash m => rfl
  case aeadEnc key nonce ad pt => exact congrArg Host.Outcome.next (if_pos hlen)
  case aeadDec key nonce tag ad ct => exact congrArg Host.Outcome.next (if_pos hlen)

/-! ### The invariant -/

theorem complete_atBoundary (body : State → State) (s : State) : (complete body s).AtBoundary :=
  ⟨rfl, rfl, rfl, rfl, rfl, rfl⟩

theorem raise_atBoundary (f : Raised) (s : State) : (raise f s).AtBoundary :=
  ⟨raise_chk s f, raise_rnd s f, raise_stp s f, raise_staging s f, raise_busy s f, raise_permuting s f⟩

/-- Raising a fault keeps the invariant: `SameInstance` holds, and CAUSE becomes or stays a fault code. -/
theorem raise_inv {s : State} (h : s.Inv) (f : Raised) : (raise f s).Inv where
  boundary := raise_atBoundary f s
  phaseMode := by simpa using h.phaseMode
  noCause := by simp
  someCause := by
    intro _
    rw [raise_cause]
    split
    case isTrue herr => exact h.someCause herr
    case isFalse => exact ⟨f, rfl⟩
  accOnlyAfterVerify := by simpa using h.accOnlyAfterVerify
  validOnlyAfterVerify := by simpa using h.validOnlyAfterVerify

theorem consume_inv {s : State} (h : s.Inv) (n : Nat) : (s.consume n).Inv where
  boundary := ⟨h.boundary.chk, h.boundary.rnd, h.boundary.stp, h.boundary.staging, h.boundary.idle,
    h.boundary.engineIdle⟩
  phaseMode := h.phaseMode
  noCause := h.noCause
  someCause := h.someCause
  accOnlyAfterVerify := h.accOnlyAfterVerify
  validOnlyAfterVerify := h.validOnlyAfterVerify

/-- The MODE an accepted command leaves: the INITs fix it, the others keep it. -/
theorem commandBody_mode {i : Instr} {k : CmdKind} (hk : i.command? = some k) (s : State) :
    (complete (commandBody i) s).mode =
      if k = .initHash then .hash else if k = .initKeyed then .keyed else s.mode := by
  cases i <;> cases hk <;> simp [commandBody]

theorem commandBody_cause {i : Instr} {k : CmdKind} {s : State} (hInv : s.Inv) (hk : i.command? = some k)
    (h : CommandAccepted i k s) : (complete (commandBody i) s).cause = 0 := by
  obtain ⟨herr, -, -⟩ := h
  cases i <;> cases hk
  case initHash => exact initHash_cause s
  case initKeyed key nonce => exact initKeyed_cause s key nonce
  all_goals
    have hcause := hInv.noCause (by simpa using herr)
    simpa [commandBody] using hcause

/-- ACC and VALID after an accepted command other than VERIFY_TAG: the sequence has not ended, so both are 0. -/
theorem commandBody_acc_valid {i : Instr} {k : CmdKind} {s : State} (hInv : s.Inv) (hk : i.command? = some k)
    (hne : k ≠ .verifyTag) (h : CommandAccepted i k s) :
    (complete (commandBody i) s).acc = 0 ∧ (complete (commandBody i) s).valid = false := by
  by_cases hHash : k = .initHash
  · subst hHash
    cases i <;> cases hk
    exact ⟨initHash_acc s, initHash_valid s⟩
  by_cases hKeyed : k = .initKeyed
  · subst hKeyed
    cases i <;> cases hk
    exact ⟨initKeyed_acc s _ _, initKeyed_valid s _ _⟩
  have hseq : s.seq ≠ .done := by
    intro hdone
    have hrow := h.2.2
    rw [hdone] at hrow
    cases k <;> simp_all [nextSeq]
  have hacc : s.acc = 0 := by
    by_contra hne
    exact hseq (hInv.accOnlyAfterVerify hne).1
  have hvalid : s.valid = false := by
    by_contra hne
    exact hseq (hInv.validOnlyAfterVerify (by simpa using hne)).2.1
  cases i <;> cases hk <;> simp_all [commandBody]

/-- The table of R32, PHASE by R27 and MODE by the INITs lead from a fitting position to a fitting one. -/
theorem phaseModeFit_nextSeq {q q' : Seq} {k : CmdKind} {p : Phase} {m : Mode} (hfit : phaseModeFit q p m)
    (hnext : nextSeq q k = some q') :
    phaseModeFit q' (if k ∈ [CmdKind.initKeyed, .absorb, .encrypt, .decrypt] then .down else .up)
      (if k = .initHash then .hash else if k = .initKeyed then .keyed else m) := by
  cases k
  case initHash => cases hnext; simp [phaseModeFit]
  case initKeyed => cases hnext; simp [phaseModeFit]
  all_goals cases q <;> cases hnext <;> simp_all [phaseModeFit]

theorem commandBody_phaseModeFit {i : Instr} {k : CmdKind} {s : State} (hInv : s.Inv) (hk : i.command? = some k)
    (h : CommandAccepted i k s) :
    phaseModeFit (complete (commandBody i) s).seq (complete (commandBody i) s).phase
      (complete (commandBody i) s).mode := by
  rw [commandBody_phase hk s, commandBody_mode hk s]
  exact phaseModeFit_nextSeq hInv.phaseMode (commandBody_seq hInv hk h).symm

/-- VERIFY_TAG runs in Keyed mode and ends its sequence. -/
theorem verifyTag_seq_mode {t : ByteString} {s : State} (hInv : s.Inv)
    (h : CommandAccepted (.verifyTag t) .verifyTag s) :
    (complete (verifyTagBody t) s).seq = .done ∧ (complete (verifyTagBody t) s).mode = .keyed := by
  obtain ⟨-, hpro⟩ := (commandAccepted_iff_prologue (by decide) (by decide) s).1 h
  have hfit := hInv.phaseMode
  rw [((prologue_verifyTag s).1 hpro).2] at hfit
  exact ⟨verifyTag_seq s t, (verifyTag_mode s t).trans hfit.2⟩

theorem verifyTag_valid (t : ByteString) (s : State) :
    (complete (verifyTagBody t) s).valid = validOf (complete (verifyTagBody t) s).acc := rfl

/-- ACC and VALID after an accepted command are as the invariant has them. -/
theorem commandBody_inv_acc_valid {i : Instr} {k : CmdKind} {s : State} (hInv : s.Inv) (hk : i.command? = some k)
    (h : CommandAccepted i k s) :
    let t := complete (commandBody i) s
    (t.acc ≠ 0 → t.seq = .done ∧ t.mode = .keyed) ∧
      (t.valid = true → t.acc = 0 ∧ t.seq = .done ∧ t.mode = .keyed) := by
  by_cases hv : k = .verifyTag
  · subst hv
    obtain ⟨t, rfl⟩ : ∃ t, i = .verifyTag t := by cases i <;> cases hk; exact ⟨_, rfl⟩
    have hend := verifyTag_seq_mode hInv h
    refine ⟨fun _ => hend, fun hvalid => ⟨?_, hend⟩⟩
    rw [commandBody, verifyTag_valid] at hvalid
    exact eq_of_beq hvalid
  · obtain ⟨hacc, hvalid⟩ := commandBody_acc_valid hInv hk hv h
    exact ⟨fun hne => absurd hacc hne, fun htrue => absurd htrue (by simp [hvalid])⟩

theorem commandBody_inv {i : Instr} {k : CmdKind} {s : State} (hInv : s.Inv) (hk : i.command? = some k)
    (h : CommandAccepted i k s) : (complete (commandBody i) s).Inv where
  boundary := complete_atBoundary _ s
  phaseMode := commandBody_phaseModeFit hInv hk h
  noCause := fun _ => commandBody_cause hInv hk h
  someCause := by simp [commandBody_err hk h]
  accOnlyAfterVerify := (commandBody_inv_acc_valid hInv hk h).1
  validOnlyAfterVerify := (commandBody_inv_acc_valid hInv hk h).2

/-- A command keeps the invariant, whether it is accepted or faults. -/
theorem exec_command_inv {i : Instr} (hcmd : i.isCommand = true) {s t : State} (hInv : s.Inv)
    (h : exec i s = .next t) : t.Inv := by
  obtain ⟨k, hk⟩ := Option.isSome_iff_exists.1 hcmd
  by_cases hacc : CommandAccepted i k s
  · obtain rfl := Host.Outcome.next.inj ((exec_of_commandAccepted hk hacc).symm.trans h)
    exact commandBody_inv hInv hk hacc
  · obtain ⟨f, hf⟩ := exec_of_not_commandAccepted hk hacc
    obtain rfl := Host.Outcome.next.inj (hf.symm.trans h)
    exact raise_inv hInv f

/-! ### The obligations -/

/-- Settles O9, by the verdict on the front of the command stream. -/
theorem stepKeepsTheInvariant : Obligations.StepKeepsTheInvariant := by
  intro s t hInv hstep
  cases h : decode s.cmdIn with
  | command i n =>
    exact exec_command_inv (decode_isCommand h) (consume_inv hInv n) ((step_of_command h).symm.trans hstep)
  | illegal why n =>
    obtain rfl := Host.Outcome.next.inj ((step_of_illegal h).symm.trans hstep)
    exact raise_inv (consume_inv hInv n) _
  | incomplete =>
    obtain rfl := Host.Outcome.next.inj ((step_of_incomplete h).symm.trans hstep)
    exact hInv

/-- Settles O10. -/
theorem resetMeetsTheInvariant : Obligations.ResetMeetsTheInvariant where
  boundary := ⟨rfl, rfl, rfl, rfl, rfl, rfl⟩
  phaseMode := ⟨rfl, rfl⟩
  noCause := fun _ => rfl
  someCause := nofun
  accOnlyAfterVerify := fun h => absurd rfl h
  validOnlyAfterVerify := nofun

/-- Settles O11: every reset event leaves a state `State.afterReset k`. -/
theorem resetLeavesTheSpecValues : Obligations.ResetLeavesTheSpecValues := by
  intro s t ht
  obtain ⟨k, rfl⟩ : ∃ k, t = State.afterReset k := by
    obtain rfl | rfl := ht
    · exact ⟨0, rfl⟩
    · exact ⟨s.resets + instanceCount, rfl⟩
  simp [State.afterReset]

/-- Settles O7. -/
theorem stepRunsTheDecodedCommand : Obligations.StepRunsTheDecodedCommand :=
  fun _ _ _ h => step_of_command h

/-- Settles O8. -/
theorem stepAlwaysAnswersANextState : Obligations.StepAlwaysAnswersANextState := step_next

/-- Settles O13: the verdict on a whole frame stands when bytes follow, and neither a command nor a fault looks at
them. -/
theorem laterBytesDoNotChangeAStep : Obligations.LaterBytesDoNotChangeAStep := by
  intro s t more hne hstep
  have hdecode : decode (hostSend more s).cmdIn = decode s.cmdIn := decode_append more hne
  have hconsume : ∀ n ≤ s.cmdIn.length,
      (hostSend more s).consume n = (s.consume n).withCmd ((s.consume n).cmdIn ++ more) := by
    intro n hn
    simp [hostSend, State.consume, State.withCmd, List.drop_append_of_le_length hn]
  cases h : decode s.cmdIn with
  | command i n =>
    have hexec := (step_of_command h).symm.trans hstep
    have hcmd := decode_isCommand h
    rw [step_of_command (hdecode.trans h), hconsume n (decode_command_length h).2, exec_withCmd hcmd hexec,
      ← (exec_command_keeps hcmd hexec).1]
    rfl
  | illegal why n =>
    obtain rfl := Host.Outcome.next.inj ((step_of_illegal h).symm.trans hstep)
    rw [step_of_illegal (hdecode.trans h), hconsume n (decode_illegal_length h).2, raise_withCmd,
      ← raise_cmdIn (s.consume n) .illegalCommand]
    rfl
  | incomplete => exact absurd h hne

/-- Settles O45: stepping through the frames runs the expansion, which is the pseudo-command. -/
theorem pseudoCommandsAreTheirFrames : Obligations.PseudoCommandsAreTheirFrames := by
  intro i frames rest s hne hlen henc hin
  obtain ⟨t, hrun, hall⟩ := run_frames henc hin
  exact ⟨t, hrun, (exec_eq_execAll_expansion hne hlen _).trans hall⟩

/-- Settles O28. -/
theorem overlongChunkStops : Obligations.OverlongChunkStops := by
  intro x cd s hx
  have hlong : ¬ x.length ≤ rKin := Nat.not_le.2 hx
  exact ⟨if_neg hlong, if_neg hlong⟩

theorem encArgumentsOk_iff (key nonce : ByteString) :
    encArgumentsOk key nonce = true ↔ key.length = 16 ∧ nonce.length = 16 := by
  simp [encArgumentsOk, keyLen, nonceLen]

theorem decArgumentsOk_iff (key nonce tag : ByteString) :
    decArgumentsOk key nonce tag = true ↔ key.length = 16 ∧ nonce.length = 16 ∧ tag.length = 16 := by
  simp [decArgumentsOk, encArgumentsOk_iff, tagLen, and_assoc]

/-- Settles O44: the host's check fails, so nothing is issued and the result reports it. -/
theorem hostChecksLengthsFirst : Obligations.HostChecksLengthsFirst := by
  intro key nonce tag ad x s
  constructor
  · intro h
    have hargs := mt (encArgumentsOk_iff key nonce).1 h
    exact ⟨congrArg Host.Outcome.next (if_neg hargs), if_neg hargs⟩
  · intro h
    have hargs := mt (decArgumentsOk_iff key nonce tag).1 h
    exact ⟨congrArg Host.Outcome.next (if_neg hargs), if_neg hargs⟩

/-- Settles O56: the step at index `k` replaces the `k`-th state alone. -/
theorem instancesShareNothing : Obligations.InstancesShareNothing := by
  intro k is s hs
  obtain ⟨t, ht⟩ := step_next s
  have hset : stepInstance k is = is.set k t := by simp [stepInstance, hs, ht]
  have hk : k < is.length := (List.getElem?_eq_some_iff.1 hs).1
  rw [hset]
  exact ⟨List.length_set, fun j hj => List.getElem?_set_ne (Ne.symm hj), t, ht, by simp [hk]⟩

/-- STATUS bit by bit: the fields one above the other, from bit 0 up. -/
theorem getLsbD_status (s : State) (n : Nat) : s.status.getLsbD n =
    if n < 3 then s.seq.code.getLsbD n
    else if n - 3 < 1 then s.phase.code.getLsbD (n - 3)
    else if n - 4 < 1 then (modeCode s.mode).getLsbD (n - 4)
    else if n - 5 < 1 then (flagBit s.err).getLsbD (n - 5)
    else if n - 6 < 3 then s.cause.getLsbD (n - 6)
    else if n - 9 < 1 then (flagBit s.valid).getLsbD (n - 9)
    else false := by
  simp only [State.status, BitVec.getLsbD_append, Nat.sub_sub]
  simp only [Nat.reduceAdd, BitVec.ofNat_eq_ofNat, BitVec.getLsbD_zero]

theorem getLsbD_flagBit (b : Bool) : (flagBit b).getLsbD 0 = b := by cases b <;> rfl

/-- The `w` bits of STATUS from bit `lo` on are those of the field `v`. -/
theorem extractLsb'_status {s : State} {lo w : Nat} {v : BitVec w}
    (h : ∀ n < w, s.status.getLsbD (lo + n) = v.getLsbD n) : s.status.extractLsb' lo w = v := by
  apply BitVec.eq_of_getLsbD_eq
  intro n hn
  simp only [BitVec.getLsbD_extractLsb', hn, decide_true, Bool.true_and]
  exact h n hn

/-- Settles O57, field by field from the bits of STATUS. -/
theorem statusPacksTheControlState : Obligations.StatusPacksTheControlState := by
  intro s
  refine ⟨extractLsb'_status ?seq, extractLsb'_status ?phase, extractLsb'_status ?mode, ?err,
    extractLsb'_status ?cause, ?valid, extractLsb'_status ?zero⟩
  case err => exact (getLsbD_status s 5).trans (getLsbD_flagBit s.err)
  case valid => exact (getLsbD_status s 9).trans (getLsbD_flagBit s.valid)
  all_goals
    intro n hn
    interval_cases n <;> exact getLsbD_status s _

end Sys2Proof.Machine
end

section
/-! PROOFS of 40_permutation_engine R110 and R117: the permutation is its rounds, and each of its steps is a bijection. -/

namespace Sys2Proof.Machine

/-! ### Rotations -/

/-- Bit `i` of a rotated lane is the bit `n` places below it, counted modulo 32. -/
theorem getLsbD_rotateLeft_lane (v : Lane) (n : Nat) {i : Nat} (hi : i < 32) :
    (v.rotateLeft n).getLsbD i = v.getLsbD ((i + (32 - n % 32)) % 32) := by
  rw [BitVec.getLsbD_rotateLeft]
  by_cases h : i < n % 32
  · have hbit : (i + (32 - n % 32)) % 32 = 32 - n % 32 + i := by omega
    simp [h, hbit]
  · have hbit : (i + (32 - n % 32)) % 32 = i - n % 32 := by omega
    simp [h, hbit, hi]

theorem rotateLeft_xor (v w : Lane) (n : Nat) :
    (v ^^^ w).rotateLeft n = v.rotateLeft n ^^^ w.rotateLeft n := by
  apply BitVec.eq_of_getLsbD_eq
  intro i hi
  rw [BitVec.getLsbD_xor, getLsbD_rotateLeft_lane _ _ hi, getLsbD_rotateLeft_lane _ _ hi,
    getLsbD_rotateLeft_lane _ _ hi, BitVec.getLsbD_xor]

theorem rotateLeft_rotateLeft (v : Lane) (m n : Nat) : (v.rotateLeft m).rotateLeft n = v.rotateLeft (m + n) := by
  apply BitVec.eq_of_getLsbD_eq
  intro i hi
  rw [getLsbD_rotateLeft_lane _ _ hi, getLsbD_rotateLeft_lane _ _ (Nat.mod_lt _ (by decide)),
    getLsbD_rotateLeft_lane _ _ hi]
  congr 1
  omega

theorem rotateLeft_of_mod_eq_zero (v : Lane) {n : Nat} (h : n % 32 = 0) : v.rotateLeft n = v := by
  rw [← BitVec.rotateLeft_mod_eq_rotateLeft, h]
  apply BitVec.eq_of_getLsbD_eq
  intro i hi
  rw [getLsbD_rotateLeft_lane _ _ hi]
  congr 1
  omega

/-- Two rotations that make a full turn undo each other. -/
theorem rotateLeft_full_turn (v : Lane) {m n : Nat} (h : (m + n) % 32 = 0) : (v.rotateLeft m).rotateLeft n = v := by
  rw [rotateLeft_rotateLeft, rotateLeft_of_mod_eq_zero v h]

/-! ### THETA -/

/-- THETA with its distance and rotations as parameters: the parity of the column `d` to the left, rotated by `m` and by
`n`, enters every lane. -/
def thetaBy (d : Fin 4) (m n : Nat) (a : Lanes) : Lanes :=
  Lanes.ofLanes fun y x => a.lane y x ^^^
    (((columnParity a).lane (x - d)).rotateLeft m ^^^ ((columnParity a).lane (x - d)).rotateLeft n)

theorem theta_eq_thetaBy : theta = thetaBy 1 5 14 := by
  funext a
  apply Lanes.ext_lane
  intro y x
  rw [lane_theta, lane_thetaEffect, thetaBy, Lanes.lane_ofLanes]

theorem lane_thetaBy (d : Fin 4) (m n : Nat) (a : Lanes) (y : Fin 3) (x : Fin 4) :
    (thetaBy d m n a).lane y x = a.lane y x ^^^
      (((columnParity a).lane (x - d)).rotateLeft m ^^^ ((columnParity a).lane (x - d)).rotateLeft n) :=
  Lanes.lane_ofLanes _ y x

/-- What enters all three lanes of a column enters its parity once. -/
theorem columnParity_thetaBy (d : Fin 4) (m n : Nat) (a : Lanes) (x : Fin 4) :
    (columnParity (thetaBy d m n a)).lane x = (columnParity a).lane x ^^^
      (((columnParity a).lane (x - d)).rotateLeft m ^^^ ((columnParity a).lane (x - d)).rotateLeft n) := by
  rw [lane_columnParity, lane_thetaBy, lane_thetaBy, lane_thetaBy]
  generalize ((columnParity a).lane (x - d)).rotateLeft m ^^^ ((columnParity a).lane (x - d)).rotateLeft n = e
  rw [lane_columnParity]
  grind

theorem xor_cancel_mixed (v a b c d e : Lane) :
    v ^^^ (a ^^^ b) ^^^ ((a ^^^ (c ^^^ d)) ^^^ (b ^^^ (d ^^^ e))) = v ^^^ (c ^^^ e) := by
  have hbits : ∀ v a b c d e : Bool,
      ((v ^^ (a ^^ b)) ^^ ((a ^^ (c ^^ d)) ^^ (b ^^ (d ^^ e)))) = (v ^^ (c ^^ e)) := by decide
  apply BitVec.eq_of_getLsbD_eq
  intro i _
  simp only [BitVec.getLsbD_xor, hbits]

/-- Applied twice, the mixed terms cancel: the distance and the rotations double. -/
theorem thetaBy_comp_self (d : Fin 4) (m n : Nat) :
    thetaBy d m n ∘ thetaBy d m n = thetaBy (d + d) (m + m) (n + n) := by
  funext a
  apply Lanes.ext_lane
  intro y x
  rw [Function.comp_apply, lane_thetaBy, columnParity_thetaBy, lane_thetaBy, lane_thetaBy, sub_sub]
  simp only [rotateLeft_xor, rotateLeft_rotateLeft, Nat.add_comm n m]
  exact xor_cancel_mixed _ _ _ _ _ _

/-- A column at distance 0 with full turns: both copies of the parity are the same and cancel. -/
theorem thetaBy_full_turns {m n : Nat} (hm : m % 32 = 0) (hn : n % 32 = 0) : thetaBy 0 m n = id := by
  funext a
  apply Lanes.ext_lane
  intro y x
  rw [lane_thetaBy, rotateLeft_of_mod_eq_zero _ hm, rotateLeft_of_mod_eq_zero _ hn, BitVec.xor_self, BitVec.xor_zero]
  rfl

theorem thetaBy_bijective_of_double {d d' : Fin 4} {m n m' n' : Nat} (hd : d + d = d') (hm : m + m = m')
    (hn : n + n = n') (h : Function.Bijective (thetaBy d' m' n')) : Function.Bijective (thetaBy d m n) := by
  rw [← hd, ← hm, ← hn, ← thetaBy_comp_self] at h
  exact ⟨h.injective.of_comp, h.surjective.of_comp⟩

/-- Doubled five times, the distance is 0 and the rotations are full turns, so THETA has order 32. -/
theorem theta_bijective : Function.Bijective theta := by
  have h32 : Function.Bijective (thetaBy 0 160 448) := by
    rw [thetaBy_full_turns (by decide) (by decide)]
    exact Function.bijective_id
  have h16 := thetaBy_bijective_of_double (d := 0) (m := 80) (n := 224) rfl rfl rfl h32
  have h8 := thetaBy_bijective_of_double (d := 0) (m := 40) (n := 112) rfl rfl rfl h16
  have h4 := thetaBy_bijective_of_double (d := 0) (m := 20) (n := 56) rfl rfl rfl h8
  have h2 := thetaBy_bijective_of_double (d := 2) (m := 10) (n := 28) rfl rfl rfl h4
  have h1 := thetaBy_bijective_of_double (d := 1) (m := 5) (n := 14) rfl rfl rfl h2
  rwa [theta_eq_thetaBy]

/-! ### The other steps -/

/-- RHO_WEST backwards. -/
def rhoWestInv (a : Lanes) : Lanes :=
  { p0 := a.p0
    p1 := Plane.ofLanes fun x => a.lane 1 (x + 1)
    p2 := Plane.ofLanes fun x => (a.lane 2 x).rotateLeft 21 }

/-- RHO_EAST backwards. -/
def rhoEastInv (a : Lanes) : Lanes :=
  { p0 := a.p0
    p1 := Plane.ofLanes fun x => (a.lane 1 x).rotateLeft 31
    p2 := Plane.ofLanes fun x => (a.lane 2 (x + 2)).rotateLeft 24 }

theorem lane_one_rhoWestInv (a : Lanes) (x : Fin 4) : (rhoWestInv a).lane 1 x = a.lane 1 (x + 1) :=
  Plane.lane_ofLanes _ x

theorem lane_two_rhoWestInv (a : Lanes) (x : Fin 4) : (rhoWestInv a).lane 2 x = (a.lane 2 x).rotateLeft 21 :=
  Plane.lane_ofLanes _ x

theorem lane_one_rhoEastInv (a : Lanes) (x : Fin 4) : (rhoEastInv a).lane 1 x = (a.lane 1 x).rotateLeft 31 :=
  Plane.lane_ofLanes _ x

theorem lane_two_rhoEastInv (a : Lanes) (x : Fin 4) : (rhoEastInv a).lane 2 x = (a.lane 2 (x + 2)).rotateLeft 24 :=
  Plane.lane_ofLanes _ x

theorem rhoWest_bijective : Function.Bijective rhoWest := by
  refine Function.bijective_iff_has_inverse.2
    ⟨rhoWestInv, fun a => Lanes.ext_lane fun y x => ?left, fun a => Lanes.ext_lane fun y x => ?right⟩
  case left =>
    match y with
    | 0 => rfl
    | 1 => rw [lane_one_rhoWestInv, lane_one_rhoWest, add_sub_cancel_right]
    | 2 => rw [lane_two_rhoWestInv, lane_two_rhoWest, rotateLeft_full_turn _ rfl]
  case right =>
    match y with
    | 0 => rfl
    | 1 => rw [lane_one_rhoWest, lane_one_rhoWestInv, sub_add_cancel]
    | 2 => rw [lane_two_rhoWest, lane_two_rhoWestInv, rotateLeft_full_turn _ rfl]

theorem rhoEast_bijective : Function.Bijective rhoEast := by
  refine Function.bijective_iff_has_inverse.2
    ⟨rhoEastInv, fun a => Lanes.ext_lane fun y x => ?left, fun a => Lanes.ext_lane fun y x => ?right⟩
  case left =>
    match y with
    | 0 => rfl
    | 1 => rw [lane_one_rhoEastInv, lane_one_rhoEast, rotateLeft_full_turn _ rfl]
    | 2 => rw [lane_two_rhoEastInv, lane_two_rhoEast, add_sub_cancel_right, rotateLeft_full_turn _ rfl]
  case right =>
    match y with
    | 0 => rfl
    | 1 => rw [lane_one_rhoEast, lane_one_rhoEastInv, rotateLeft_full_turn _ rfl]
    | 2 => rw [lane_two_rhoEast, lane_two_rhoEastInv, sub_add_cancel, rotateLeft_full_turn _ rfl]

theorem iota_bijective (r : Fin 12) : Function.Bijective (iota r) := by
  refine Function.Involutive.bijective fun a => ?_
  simp [iota]

theorem chi_bits (a b c : Lane) :
    (a ^^^ (~~~b &&& c)) ^^^ (~~~(b ^^^ (~~~c &&& a)) &&& (c ^^^ (~~~a &&& b))) = a := by
  have hbits : ∀ a b c : Bool, ((a ^^ (!b && c)) ^^ (!(b ^^ (!c && a)) && (c ^^ (!a && b)))) = a := by decide
  apply BitVec.eq_of_getLsbD_eq
  intro i hi
  simpa [hi] using hbits (a.getLsbD i) (b.getLsbD i) (c.getLsbD i)

/-- CHI is its own inverse: bit by bit, a function of three bits. -/
theorem chi_bijective : Function.Bijective chi := by
  refine Function.Involutive.bijective fun a => Lanes.ext_lane fun y x => ?_
  have h3 : y + 1 + 2 = y ∧ y + 2 + 1 = y ∧ y + 1 + 1 = y + 2 ∧ y + 2 + 2 = y + 1 := by
    fin_cases y <;> decide
  obtain ⟨h12, h21, h11, h22⟩ := h3
  rw [lane_chi, lane_chi, lane_chi, lane_chi, h12, h21, h11, h22]
  exact chi_bits _ _ _

theorem round_bijective (r : Fin 12) : Function.Bijective (round r) :=
  rhoEast_bijective.comp (chi_bijective.comp ((iota_bijective r).comp (rhoWest_bijective.comp theta_bijective)))

theorem rounds_bijective (rs : List (Fin 12)) : Function.Bijective (rounds rs) := by
  induction rs with
  | nil => exact Function.bijective_id
  | cons r rs ih => exact ih.comp (round_bijective r)

/-! ### The obligations -/

/-- Settles O22: each round is a bijection, being composed of five. -/
theorem permuteIsInvertible : Obligations.PermuteIsInvertible := rounds_bijective roundOrder

/-- Rounds as instructions are the rounds of the engine, one after another. -/
theorem execAll_rounds (rs : List (Fin 12)) (s : State) :
    execAll (rs.map Instr.round) s = .next (s.putLanes (rounds rs s.lanes)) := by
  induction rs generalizing s with
  | nil => rfl
  | cons r rs ih => exact (execAll_cons_next (exec_round r s) _).trans (ih _)

theorem exec_permute (s : State) : exec .permute s = .next (s.putLanes (permute s.lanes)) := rfl

/-- Settles O20. -/
theorem permuteIsTwelveRounds : Obligations.PermuteIsTwelveRounds :=
  fun s => ⟨_, exec_permute s, rfl, execAll_rounds roundOrder s⟩

end Sys2Proof.Machine
end

section
/-! PROOFS of 10_state R24 and 30_encoding R90: the sequencer tick by tick, round by round, and to the end of PERMUTE. -/

namespace Sys2Proof.Machine

/-! ### One tick -/

/-- `s` with the lanes `a` and the engine at RND = `r`, STEP = `k`. -/
def engineAt (a : Lanes) (r : Fin 12) (k : Fin 5) (s : State) : State :=
  { s with lanes := a, permuting := true, rnd := r, stp := k }

/-- `s` with the lanes `a` and the engine stopped. -/
def engineStopped (a : Lanes) (s : State) : State :=
  { s with lanes := a, permuting := false, rnd := 0, stp := 0 }

theorem engineStart_eq_engineAt {s : State} (h : s.busy = true) : engineStart s = engineAt s.lanes 0 0 s :=
  engineStart_busy h

theorem engineAt_runs {s : State} (h : s.busy = true) (a : Lanes) (r : Fin 12) (k : Fin 5) :
    (engineAt a r k s).engineRuns = true :=
  (State.engineRuns_iff _).2 ⟨h, rfl⟩

/-- A tick of a running engine: the selected micro-operation, then the sequencer moves on. -/
theorem engineTick_engineAt {s : State} (h : s.busy = true) {a b : Lanes} {r : Fin 12} {k : Fin 5}
    (hexec : exec (selected (engineAt a r k s)) (engineAt a r k s) = .next (engineAt b r k s)) :
    engineTick (engineAt a r k s) = .next (advance (engineAt b r k s)) := by
  simp only [engineTick, engineAt_runs h, if_true, hexec]

theorem advance_engineAt_of_lt (a : Lanes) (r : Fin 12) {k : Fin 5} (hk : k ≠ 4) (s : State) :
    advance (engineAt a r k s) = engineAt a r (k + 1) s := by
  simp [advance, atLastStep, engineAt, hk]

theorem advance_engineAt_four (a : Lanes) {r : Fin 12} (hr : r ≠ 11) (s : State) :
    advance (engineAt a r 4 s) = engineAt a (r + 1) 0 s := by
  simp [advance, atLastStep, engineAt, hr]

theorem advance_engineAt_last (a : Lanes) (s : State) : advance (engineAt a 11 4 s) = engineStopped a s := rfl

theorem engineTicks_succ {s t : State} (h : engineTick s = .next t) (n : Nat) :
    engineTicks (n + 1) s = engineTicks n t := by
  simp only [engineTicks, h]

theorem take_succ_roundOrder (r : Fin 12) : roundOrder.take (r.val + 1) = roundOrder.take r.val ++ [r] := by
  revert r
  decide

/-! ### The ticks of one round -/

section
variable {s : State} (h : s.busy = true) (a : Lanes) (r : Fin 12)
include h

theorem engineTick_theta : engineTick (engineAt a r 0 s) = .next (engineAt (theta a) r 1 s) :=
  (engineTick_engineAt h rfl).trans (congrArg _ (advance_engineAt_of_lt _ r (by decide) s))

theorem engineTick_rhoWest : engineTick (engineAt a r 1 s) = .next (engineAt (rhoWest a) r 2 s) :=
  (engineTick_engineAt h rfl).trans (congrArg _ (advance_engineAt_of_lt _ r (by decide) s))

theorem engineTick_iota : engineTick (engineAt a r 2 s) = .next (engineAt (iota r a) r 3 s) :=
  (engineTick_engineAt h rfl).trans (congrArg _ (advance_engineAt_of_lt _ r (by decide) s))

theorem engineTick_chi : engineTick (engineAt a r 3 s) = .next (engineAt (chi a) r 4 s) :=
  (engineTick_engineAt h rfl).trans (congrArg _ (advance_engineAt_of_lt _ r (by decide) s))

theorem engineTick_rhoEast :
    engineTick (engineAt a r 4 s) = .next (advance (engineAt (rhoEast a) r 4 s)) :=
  engineTick_engineAt h rfl

/-- Within a round, `k` ticks lead to STEP = `k`. -/
theorem engineTicks_within_round (k : Fin 5) :
    ∃ b, engineTicks k.val (engineAt a r 0 s) = .next (engineAt b r k s) ∧ (k = 0 → b = a) := by
  have t0 := engineTick_theta h a r
  have t1 := engineTick_rhoWest h (theta a) r
  have t2 := engineTick_iota h (rhoWest (theta a)) r
  have t3 := engineTick_chi h (iota r (rhoWest (theta a))) r
  match k with
  | 0 => exact ⟨a, rfl, fun _ => rfl⟩
  | 1 => exact ⟨_, engineTicks_succ t0 0, nofun⟩
  | 2 => exact ⟨_, (engineTicks_succ t0 1).trans (engineTicks_succ t1 0), nofun⟩
  | 3 => exact ⟨_, (engineTicks_succ t0 2).trans ((engineTicks_succ t1 1).trans (engineTicks_succ t2 0)), nofun⟩
  | 4 => exact ⟨_, (engineTicks_succ t0 3).trans
      ((engineTicks_succ t1 2).trans ((engineTicks_succ t2 1).trans (engineTicks_succ t3 0))), nofun⟩

/-- Five ticks are one round; what follows is for the sequencer to say. -/
theorem engineTicks_round :
    engineTicks 5 (engineAt a r 0 s) = .next (advance (engineAt (round r a) r 4 s)) := by
  rw [engineTicks_succ (engineTick_theta h a r), engineTicks_succ (engineTick_rhoWest h _ r),
    engineTicks_succ (engineTick_iota h _ r), engineTicks_succ (engineTick_chi h _ r),
    engineTicks_succ (engineTick_rhoEast h _ r)]
  rfl

/-! ### The rounds -/

/-- After `r` rounds the engine stands at RND = `r`, STEP = 0. -/
theorem engineTicks_rounds (r : Fin 12) : engineTicks (5 * r.val) (engineAt a 0 0 s) =
    .next (engineAt (rounds (roundOrder.take r.val) a) r 0 s) := by
  obtain ⟨r, hr⟩ := r
  induction r with
  | zero => rfl
  | succ r ih =>
    have hne : (⟨r, by omega⟩ : Fin 12) ≠ 11 := by
      intro heq
      have := congrArg Fin.val heq
      simp at this
      omega
    have hnext : (⟨r, by omega⟩ : Fin 12) + 1 = ⟨r + 1, hr⟩ := by
      apply Fin.ext
      rw [Fin.val_add]
      exact Nat.mod_eq_of_lt hr
    rw [Nat.mul_add, engineTicks_add (ih (by omega)), engineTicks_round h, advance_engineAt_four _ hne, hnext,
      take_succ_roundOrder (⟨r, by omega⟩ : Fin 12), rounds_append]
    rfl

/-- After 60 ticks the permutation is complete and the engine has stopped; further ticks do nothing. -/
theorem engineTicks_permute {n : Nat} (hn : 60 ≤ n) :
    engineTicks n (engineAt a 0 0 s) = .next (engineStopped (permute a) s) := by
  obtain ⟨m, rfl⟩ := Nat.exists_eq_add_of_le hn
  have hrounds := engineTicks_rounds h a 11
  have h60 : engineTicks 60 (engineAt a 0 0 s) = .next (engineStopped (permute a) s) := by
    rw [show 60 = 5 * (11 : Fin 12).val + 5 from rfl, engineTicks_add hrounds, engineTicks_round h,
      advance_engineAt_last]
    rfl
  have hidle : (engineStopped (permute a) s).engineRuns = false := by simp [State.engineRuns, engineStopped]
  rw [engineTicks_add h60, engineTicks_idle hidle]

end

/-! ### The obligation -/

/-- Settles O21. -/
theorem sequencerTicksRunThePermutation : Obligations.SequencerTicksRunThePermutation := by
  refine ⟨fun s h => ⟨fun r k => ?during, ?complete⟩, fun s h => ?idle, fun s h => ?noCommand⟩
  case during =>
    obtain ⟨b, hticks, hb⟩ := engineTicks_within_round h (rounds (roundOrder.take r.val) s.lanes) r k
    refine ⟨engineAt b r k s, ?_, rfl, hb⟩
    rw [engineStart_eq_engineAt h, engineTicks_add (engineTicks_rounds h s.lanes r), hticks]
  case complete =>
    refine ⟨_, exec_permute s, fun n hn => ?_⟩
    rw [engineStart_eq_engineAt h, engineTicks_permute h s.lanes hn]
    rfl
  case idle =>
    apply engineTick_idle
    obtain hbusy | hperm := h
    · simp [State.engineRuns, hbusy]
    · simp [State.engineRuns, hperm]
  case noCommand => simp [engineStart, h]

end Sys2Proof.Machine
end

section
/-! PROOFS of 41_duplex_primitives R132 to R134 and R138, and of 42_duplex_commands R150 to R152: the duplex primitives
byte by byte, and the two INITs. -/

namespace Sys2Proof.Machine

/-! ### The primitives as instructions -/

theorem exec_up (cu : Byte) (s : State) : exec (.up cu) s = .next (up cu s) := rfl

theorem exec_down {x : ByteString} (hx : x.length ≤ 44) (cd : Byte) (s : State) :
    exec (.down x cd) s = .next (down x cd s) := if_pos hx

theorem exec_downOvr {x : ByteString} (hx : x.length ≤ 44) (cd : Byte) (s : State) :
    exec (.downOvr x cd) s = .next (downOvr x cd s) := if_pos hx

/-! ### The primitives byte by byte -/

theorem byte_upInject (m : Mode) (cu : Byte) (a : Lanes) {i : Nat} (hi : i < 48) :
    (upInject m cu a).byte i = if m = .keyed ∧ i = 47 then a.byte 47 ^^^ cu else a.byte i := by
  cases m with
  | hash => simp [upInject]
  | keyed => simpa [upInject, domPos] using byte_setByte a (a.byte 47 ^^^ cu) (i := 47) (by decide) hi

/-- Padding and code behind `n` bytes that were written with `v`, byte by byte (41_duplex_primitives R138). -/
theorem byte_padAndCode_of_written {a b : Lanes} {n : Nat} {v : Nat → Byte} (hn : n ≤ 44)
    (hb : ∀ i < 48, b.byte i = if i < n then v i else a.byte i) (c : Byte) {i : Nat} (hi : i < 48) :
    (padAndCode n c b).byte i =
      if i < n then v i
      else if i = n then a.byte i ^^^ 0x01
      else if i = 47 then a.byte i ^^^ c
      else a.byte i := by
  rw [byte_padAndCode _ _ (by omega) hi, hb i hi, hb n (by omega), hb 47 (by decide)]
  have h47 : ¬ 47 < n := by omega
  by_cases h1 : i = n
  · subst h1
    simp [padByte]
  · by_cases h2 : i = 47
    · subst h2
      simp [h1, h47]
    · simp [h1, h2]

theorem byte_down {x : ByteString} (hx : x.length ≤ 44) (cd : Byte) (s : State) {i : Nat} (hi : i < 48) :
    (down x cd s).byte i =
      if i < x.length then s.byte i ^^^ x.getD i 0
      else if i = x.length then s.byte i ^^^ 0x01
      else if i = 47 then s.byte i ^^^ downCode s.mode cd
      else s.byte i := by
  rw [State.byte, down_lanes]
  refine byte_padAndCode_of_written (a := s.lanes) (v := fun j => s.byte j ^^^ x.getD j 0) hx (fun j hj => ?_) _ hi
  simpa [State.byte] using byte_memXor x s.lanes (start := 0) (by omega) hj

theorem byte_downOvr {x : ByteString} (hx : x.length ≤ 44) (cd : Byte) (s : State) {i : Nat} (hi : i < 48) :
    (downOvr x cd s).byte i =
      if i < x.length then x.getD i 0
      else if i = x.length then s.byte i ^^^ 0x01
      else if i = 47 then s.byte i ^^^ cd
      else s.byte i := by
  rw [State.byte, downOvr_lanes]
  refine byte_padAndCode_of_written (a := s.lanes) (v := fun j => x.getD j 0) hx (fun j hj => ?_) _ hi
  simpa using byte_memWrite x s.lanes (start := 0) (by omega) hj

/-! ### The key block -/

theorem length_keyBlock {key nonce : ByteString} (hkey : key.length = 16) (hnonce : nonce.length = 16) :
    (keyBlock key nonce).length = 33 := by
  simp [keyBlock, hkey, hnonce]

theorem getD_keyBlock_key {key nonce : ByteString} (hkey : key.length = 16) {i : Nat} (hi : i < 16) :
    (keyBlock key nonce).getD i 0 = key.getD i 0 := by
  rw [keyBlock, List.append_assoc, List.getD_append _ _ _ _ (by omega)]

theorem getD_keyBlock_nonce {key nonce : ByteString} (hkey : key.length = 16) (hnonce : nonce.length = 16) {i : Nat}
    (hi : i < 16) : (keyBlock key nonce).getD (16 + i) 0 = nonce.getD i 0 := by
  rw [keyBlock, List.append_assoc, List.getD_append_right _ _ _ _ (by omega), List.getD_append _ _ _ _ (by omega),
    hkey, Nat.add_sub_cancel_left]

theorem getD_keyBlock_last {key nonce : ByteString} (hkey : key.length = 16) (hnonce : nonce.length = 16) :
    (keyBlock key nonce).getD 32 0 = 0x10 := by
  have hlen : (key ++ nonce).length = 32 := by simp [hkey, hnonce]
  rw [keyBlock, List.getD_append_right _ _ _ _ (by omega), hlen, hnonce]
  rfl

/-- The lanes after INIT_KEYED: the key block in a zero state, with padding and code (42_duplex_commands R151). -/
theorem byte_initKeyed {key nonce : ByteString} (hkey : key.length = 16) (hnonce : nonce.length = 16) (s : State)
    {i : Nat} (hi : i < 48) : (complete (initKeyedBody key nonce) s).byte i =
      if i < 33 then (keyBlock key nonce).getD i 0 else if i = 33 then 0x01 else if i = 47 then 0x02 else 0 := by
  have hlen := length_keyBlock hkey hnonce
  have hdown := byte_down (by omega : (keyBlock key nonce).length ≤ 44) cdKey (s.beginCommand.newInstance .keyed) hi
  have hzero : (s.beginCommand.newInstance .keyed).byte i = 0 := byte_zero i
  rw [hzero, hlen] at hdown
  refine hdown.trans ?_
  simp [downCode, cdKey]

/-! ### The obligations -/

/-- Settles O25. -/
theorem upInjectsAndPermutes : Obligations.UpInjectsAndPermutes := by
  intro cu s
  exact ⟨_, exec_up cu s, rfl, upInject s.mode cu s.lanes, up_lanes s cu, fun _ hi => byte_upInject s.mode cu _ hi⟩

/-- Settles O26. -/
theorem downXorsTheChunk : Obligations.DownXorsTheChunk := by
  intro x cd s hx
  refine ⟨_, exec_down hx cd s, rfl, fun i hi => ?_⟩
  have hcode : downCode s.mode cd = if s.mode = .hash then cd &&& 0x01 else cd := by cases s.mode <;> rfl
  rw [← hcode]
  exact byte_down hx cd s hi

/-- Settles O27. -/
theorem downOvrOverwritesTheChunk : Obligations.DownOvrOverwritesTheChunk := by
  intro x cd s hx
  exact ⟨_, exec_downOvr hx cd s, rfl, fun _ hi => byte_downOvr hx cd s hi⟩

/-- Settles O29. -/
theorem initHashStartsAZeroInstance : Obligations.InitHashStartsAZeroInstance := by
  intro s
  exact ⟨_, exec_of_commandAccepted rfl (commandAccepted_initHash s), fun i _ => byte_zero i, rfl⟩

/-- Settles O30: byte by byte from `byte_initKeyed`; the length check is the only one. -/
theorem initKeyedAbsorbsTheKeyBlock : Obligations.InitKeyedAbsorbsTheKeyBlock := by
  intro key nonce s
  constructor
  · intro hkey hnonce
    have hacc := (commandAccepted_initKeyed_iff key nonce s).2 ⟨hkey, hnonce⟩
    have hbyte := fun {i : Nat} (hi : i < 48) => byte_initKeyed hkey hnonce s hi
    refine ⟨_, exec_of_commandAccepted rfl hacc, fun i hi => ⟨?key, ?nonce⟩, ?last, ?pad,
      fun i h34 h46 => ?zero, ?code, ?frame⟩
    case key => exact (hbyte (by omega)).trans ((if_pos (by omega)).trans (getD_keyBlock_key hkey hi))
    case nonce => exact (hbyte (by omega)).trans ((if_pos (by omega)).trans (getD_keyBlock_nonce hkey hnonce hi))
    case last => exact (hbyte (by omega)).trans (getD_keyBlock_last hkey hnonce)
    case pad => exact hbyte (by omega)
    case zero =>
      refine (hbyte (by omega)).trans ?_
      rw [if_neg (by omega), if_neg (by omega), if_neg (by omega)]
    case code => exact hbyte (by omega)
    case frame =>
      have htrace : (complete (initKeyedBody key nonce) s).trace = s.trace ++ [.down 33 0x02] := by
        simp [complete, initKeyedBody, length_keyBlock hkey hnonce, cdKey]
      rw [← htrace]
      rfl
  · intro h
    refine exec_initKeyed_of_not_argumentsOk ?_ s
    simpa [argumentsOk] using h

end Sys2Proof.Machine
end

section
/-! PROOFS of 42_duplex_commands R153 and R154: ABSORB and SQUEEZE are their micro-operations, and leave the rest
as it was. -/

namespace Sys2Proof.Machine

/-! ### What the commands with a loop leave alone -/

/-- What ABSORB, SQUEEZE, ENCRYPT and DECRYPT do not touch. -/
structure SameBesidesLoop (s t : State) : Prop where
  mode : t.mode = s.mode
  err : t.err = s.err
  cause : t.cause = s.cause
  valid : t.valid = s.valid
  acc : t.acc = s.acc
  cmdIn : t.cmdIn = s.cmdIn
  resets : t.resets = s.resets

/-- A command that leaves those fields alone and ends at a boundary changes only what is named here. -/
theorem SameBesidesLoop.eq {s t : State} (h : SameBesidesLoop s t) (hb : t.AtBoundary) {p : Phase} {q : Seq}
    {out : ByteString} (hphase : t.phase = p) (hseq : t.seq = q) (hresp : t.respOut = out) :
    t = { s with
      lanes := t.lanes
      phase := p
      seq := q
      chk := 0
      rnd := 0
      stp := 0
      staging := []
      busy := false
      permuting := false
      trace := t.trace
      respOut := out } := by
  obtain ⟨hmode, herr, hcause, hvalid, hacc, hcmdIn, hresets⟩ := h
  obtain ⟨hchk, hrnd, hstp, hstaging, hidle, hengine⟩ := hb
  cases s
  cases t
  simp_all

theorem absorb_sameBesidesLoop (p : Profile) (x : ByteString) (s : State) :
    SameBesidesLoop s (complete (absorbBody p x) s) :=
  ⟨absorb_mode s p x, absorb_err s p x, absorb_cause s p x, absorb_valid s p x, absorb_acc s p x, absorb_cmdIn s p x,
    absorb_resets s p x⟩

theorem squeeze_sameBesidesLoop (p : Profile) (l : Nat) (s : State) :
    SameBesidesLoop s (complete (squeezeBody p l) s) :=
  ⟨squeeze_mode s p l, squeeze_err s p l, squeeze_cause s p l, squeeze_valid s p l, squeeze_acc s p l,
    squeeze_cmdIn s p l, squeeze_resets s p l⟩

theorem encrypt_sameBesidesLoop (p : Profile) (x : ByteString) (s : State) :
    SameBesidesLoop s (complete (encryptBody p x) s) :=
  ⟨encrypt_mode s p x, encrypt_err s p x, encrypt_cause s p x, encrypt_valid s p x, encrypt_acc s p x,
    encrypt_cmdIn s p x, encrypt_resets s p x⟩

theorem decrypt_sameBesidesLoop (p : Profile) (x : ByteString) (s : State) :
    SameBesidesLoop s (complete (decryptBody p x) s) :=
  ⟨decrypt_mode s p x, decrypt_err s p x, decrypt_cause s p x, decrypt_valid s p x, decrypt_acc s p x,
    decrypt_cmdIn s p x, decrypt_resets s p x⟩

/-! ### Accepted commands -/

theorem exec_absorb_of_accepted {s : State} (herr : s.err = false) (hseq : s.seq ∈ [Seq.hInit, .hAbs, .kInit, .kAd])
    (x : ByteString) : exec (.absorb x) s = .next (complete (absorbBody hardware x) s) :=
  congrArg Host.Outcome.next (guarded_ok s _ ((prologue_absorb s).2 ⟨herr, by simpa using hseq⟩))

theorem exec_squeeze_of_accepted {s : State} (herr : s.err = false) (hseq : s.seq = .hAbs) (l : Nat) :
    exec (.squeeze l) s = .next (complete (squeezeBody hardware l) s) :=
  congrArg Host.Outcome.next (guarded_ok s _ ((prologue_squeeze s).2 ⟨herr, hseq⟩))

/-! ### ABSORB -/

theorem ensureUp_of_down {s : State} (h : s.phase = .down) : ensureUp s = up cuBlank s := by
  simp [ensureUp, h]

theorem ensureUp_of_up {s : State} (h : s.phase = .up) : ensureUp s = s := by
  simp [ensureUp, h]

theorem DuplexAgree.ensureUp {s t : State} (h : DuplexAgree s t) :
    DuplexAgree (Machine.ensureUp s) (Machine.ensureUp t) := by
  cases ht : t.phase with
  | down =>
    rw [ensureUp_of_down ht, ensureUp_of_down (h.phase.trans ht)]
    exact h.up cuBlank
  | up =>
    rw [ensureUp_of_up ht, ensureUp_of_up (h.phase.trans ht)]
    exact h

theorem absorbMicroOps_down (code : Byte) (c : ByteString) (cs : List ByteString) :
    absorbMicroOps .down code (c :: cs) = .up 0x00 :: .down c code :: absorbMicroOps .down 0x00 cs := rfl

theorem absorbMicroOps_up (code : Byte) (c : ByteString) (cs : List ByteString) :
    absorbMicroOps .up code (c :: cs) = .down c code :: absorbMicroOps .down 0x00 cs := rfl

/-- The micro-operation before a chunk, where PHASE asks for one, is ENSURE_UP (41_duplex_primitives R131). -/
theorem execAll_absorbMicroOps_cons {c : ByteString} (hc : c.length ≤ 44) (code : Byte) (cs : List ByteString)
    (s : State) : execAll (absorbMicroOps s.phase code (c :: cs)) s =
      execAll (absorbMicroOps .down 0x00 cs) (down c code (ensureUp s)) := by
  cases h : s.phase with
  | down =>
    rw [absorbMicroOps_down, execAll_cons_next (exec_up _ s), execAll_cons_next (exec_down hc _ _),
      ensureUp_of_down h]
    rfl
  | up => rw [absorbMicroOps_up, execAll_cons_next (exec_down hc _ _), ensureUp_of_up h]

/-- The loop of ABSORB and its micro-operations keep the duplex state in step. -/
theorem execAll_absorbMicroOps {cs : List ByteString} (hcs : ∀ c ∈ cs, c.length ≤ 44) {s u : State}
    (h : DuplexAgree s u) {code : Byte} (hcode : code = cdAbsorb hardware s.chk) :
    ∃ v, execAll (absorbMicroOps u.phase code cs) u = .next v ∧
      DuplexAgree (eachChunk (absorbChunk hardware) cs s) v := by
  induction cs generalizing s u code with
  | nil => exact ⟨u, rfl, h⟩
  | cons c cs ih =>
    obtain ⟨hc, hcs⟩ := List.forall_mem_cons.1 hcs
    have hload : DuplexAgree (s.load c) u := ⟨h.lanes, h.phase, h.mode⟩
    have hdown := hload.ensureUp.down c (cdAbsorb hardware s.chk)
    have hstep : DuplexAgree (absorbChunk hardware (s.load c)).nextChunk (down c code (ensureUp u)) := by
      rw [hcode]
      exact ⟨hdown.lanes, hdown.phase, hdown.mode⟩
    obtain ⟨v, hv, hagree⟩ := ih hcs hstep (code := 0x00) (by simp [cdAbsorb, hardware, profileH])
    refine ⟨v, ?_, hagree⟩
    rw [execAll_absorbMicroOps_cons hc]
    exact hv

theorem length_le_of_mem_chunks {x c : ByteString} {r : Nat} (hr : 0 < r) (hc : c ∈ chunks x r) : c.length ≤ r := by
  refine chunks_induction (P := fun _ cs => c ∈ cs → c.length ≤ r) hr (fun y hy hmem => ?last)
    (fun y z hy _ ih hmem => ?more) x hc
  case last => exact List.mem_singleton.1 hmem ▸ hy
  case more =>
    obtain rfl | hmem := List.mem_cons.1 hmem
    · exact hy.le
    · exact ih hmem

/-- Settles O31. -/
theorem absorbRunsItsMicroOperations : Obligations.AbsorbRunsItsMicroOperations := by
  intro x s herr hseq
  have hcs : ∀ c ∈ chunks x 16, c.length ≤ 44 := fun c hc =>
    (length_le_of_mem_chunks (by decide) hc).trans (by decide)
  have hbegin : DuplexAgree s.beginCommand s := (duplexAgree_beginCommand s).symm
  obtain ⟨u, hu, hagree⟩ := execAll_absorbMicroOps hcs hbegin (code := 0x03) rfl
  have hphase : (complete (absorbBody hardware x) s).phase = .down := absorb_phase s (by simp)
  have hlanes : (complete (absorbBody hardware x) s).lanes =
      (eachChunk (absorbChunk hardware) (chunks x 16) s.beginCommand).lanes := by
    simp [complete, absorbBody]
  have hloop : (eachChunk (absorbChunk hardware) (chunks x 16) s.beginCommand).phase = .down :=
    eachChunk_phase (by simp) (chunks_ne_nil x (by decide)) _
  refine ⟨_, u, exec_absorb_of_accepted herr hseq x, hu, hlanes.trans hagree.lanes, hagree.phase.symm.trans hloop, ?_⟩
  have hseq' : (complete (absorbBody hardware x) s).seq = if s.mode = .hash then .hAbs else .kAd := by
    rw [absorb_seq]
    cases s.mode <;> rfl
  exact (absorb_sameBesidesLoop hardware x s).eq (complete_atBoundary _ s) hphase hseq' (absorb_respOut s hardware x)

/-! ### SQUEEZE -/

/-- The state in which block `j` of SQUEEZE is read. -/
def blockState (j : Nat) (s : State) : State := nextBlock^[j] (up cuSqueeze s)

theorem execAll_blocks (j : Nat) (s : State) :
    execAll (List.replicate j [Instr.down [] 0x00, .up 0x00]).flatten s = .next (nextBlock^[j] s) := by
  induction j generalizing s with
  | zero => rfl
  | succ j ih =>
    rw [List.replicate_succ, List.flatten_cons, Function.iterate_succ_apply, ← ih]
    exact (execAll_cons_next (exec_down (by simp) _ _) _).trans (execAll_cons_next (exec_up _ _) _)

theorem execAll_squeezeMicroOps (j : Nat) (s : State) : execAll (squeezeMicroOps j) s = .next (blockState j s) :=
  (execAll_cons_next (exec_up _ s) _).trans (execAll_blocks j _)

/-- LEAD reads the leading bytes one by one (41_duplex_primitives R137). -/
theorem lead_eq_map_byte (n : Nat) (s : State) : lead n s = (List.range n).map s.byte := by
  simp [lead, Lanes.memRead, State.byte]

/-- Past `j` blocks the stream is that of the state `j` blocks on. -/
theorem drop_squeezeStream (j n : Nat) (s : State) :
    (squeezeStream (n + j) s).drop (16 * j) = squeezeStream n (nextBlock^[j] s) := by
  induction j generalizing s with
  | zero => rfl
  | succ j ih =>
    have hsplit : 16 * (j + 1) = (lead rHash s).length + 16 * j := by rw [length_lead, rHash]; omega
    rw [← Nat.add_assoc, squeezeStream, hsplit, List.drop_length_add_append, ih, Function.iterate_succ_apply]

/-- Block `j` of what SQUEEZE emits is read `j` blocks on. -/
theorem squeezeStream_block {j l n : Nat} (hj : j < n) (s : State) :
    (((squeezeStream n s).take l).drop (16 * j)).take 16 = lead (min 16 (l - 16 * j)) (nextBlock^[j] s) := by
  obtain ⟨m, rfl⟩ : ∃ m, n = m + 1 + j := ⟨n - j - 1, by omega⟩
  have hle : min 16 (l - 16 * j) ≤ rHash := Nat.min_le_left _ _
  rw [List.drop_take, drop_squeezeStream, List.take_take, squeezeStream,
    List.take_append_of_le_length (by rwa [length_lead]), take_lead, Nat.min_eq_left hle]

theorem squeezeBlocks_agree (k l : Nat) {s u : State} (h : DuplexAgree s u) :
    DuplexAgree (squeezeBlocks k l s) (nextBlock^[k] u) := by
  induction k generalizing l s u with
  | zero => exact h
  | succ k ih => exact ih _ ((duplexAgree_emitLead _ _).trans h.nextBlock)

/-- The lanes end as in the state in which the last block is read. -/
theorem squeeze_lanes (p : Profile) (l : Nat) (s : State) :
    (complete (squeezeBody p l) s).lanes = (blockState ((l + 15) / 16 - 1) s).lanes := by
  have hcount : ceilDiv (l - min l 16) 16 = (l + 15) / 16 - 1 := by
    rw [ceilDiv]
    omega
  have hup := (duplexAgree_beginCommand s).symm.up cuSqueeze
  have hfirst : DuplexAgree (emitLead (min l 16) (up cuSqueeze s.beginCommand)) (up cuSqueeze s) :=
    (duplexAgree_emitLead _ _).trans hup
  rw [← hcount]
  exact (squeezeBlocks_agree _ _ hfirst).lanes

/-- Settles O32. -/
theorem squeezeEmitsItsBlocks : Obligations.SqueezeEmitsItsBlocks := by
  intro l s herr hseq
  have hl : l ≤ 16 * (l + 1) := by omega
  let out := (squeezeStream (l + 1) (up cuSqueeze s)).take l
  have hlen : out.length = l := List.length_take_of_le (by rwa [length_squeezeStream])
  refine ⟨_, out, exec_squeeze_of_accepted herr hseq l, hlen, fun j hj => ?block,
    ⟨_, execAll_squeezeMicroOps _ s, squeeze_lanes hardware l s⟩, ?frame⟩
  case block =>
    refine ⟨_, execAll_squeezeMicroOps j s, ?_⟩
    rw [← lead_eq_map_byte]
    exact squeezeStream_block (by omega) _
  case frame =>
    exact (squeeze_sameBesidesLoop hardware l s).eq (complete_atBoundary _ s) (squeeze_phase s hardware l)
      (squeeze_seq s hardware l) (squeeze_respOut hardware hl s)

/-- Settles O33: both outputs are taken from the front of the same blocks. -/
theorem squeezeOutputsExtend : Obligations.SqueezeOutputsExtend := by
  intro l m s t u herr hseq hlm ht hu
  obtain rfl := Host.Outcome.next.inj ((exec_squeeze_of_accepted herr hseq l).symm.trans ht)
  obtain rfl := Host.Outcome.next.inj ((exec_squeeze_of_accepted herr hseq m).symm.trans hu)
  rw [squeeze_respOut hardware (by omega : l ≤ 16 * m), squeeze_respOut hardware (by omega : m ≤ 16 * m)]
  refine (List.prefix_append_right_inj _).2 ((List.prefix_cons_inj _).2 ?_)
  exact List.take_prefix_take_left hlm

end Sys2Proof.Machine
end

section
/-! PROOFS of 42_duplex_commands R155 to R158 and R160: ENCRYPT and DECRYPT are their micro-operations, chunk by chunk,
and the two tag commands answer and compare the leading bytes after one UP. -/

namespace Sys2Proof.Machine

/-! ### The output cut into chunks -/

/-- Strings of the lengths that CHUNKS cuts are the chunks of what they make together. -/
theorem chunks_flatten_of_map_length {r : Nat} (hr : 0 < r) (x : ByteString) :
    ∀ cs : List ByteString, cs.map List.length = (chunks x r).map List.length → chunks cs.flatten r = cs := by
  refine chunks_induction (P := fun _ ds => ∀ cs : List ByteString, cs.map List.length = ds.map List.length →
    chunks cs.flatten r = cs) hr (fun x hx cs hcs => ?last) (fun x y hx hy ih cs hcs => ?more) x
  case last =>
    obtain ⟨c, rfl, hc⟩ : ∃ c, cs = [c] ∧ c.length = x.length := by
      simpa [List.map_eq_cons_iff] using hcs
    rw [List.flatten_singleton, chunks_of_length_le (hc.trans_le hx)]
  case more =>
    obtain ⟨c, cs, rfl, hc, hcs⟩ := List.map_eq_cons_iff.1 hcs
    have hlen : cs.flatten.length = y.length := by
      rw [List.length_flatten, hcs, ← List.length_flatten, flatten_chunks y hr]
    have hne : cs.flatten ≠ [] := List.ne_nil_of_length_pos (hlen ▸ List.length_pos_of_ne_nil hy)
    rw [List.flatten_cons, chunks_append hr (hc.trans hx) hne, ih cs hcs]

theorem chunkAt_of_getElem? {x c : ByteString} {r j : Nat} (hr : 0 < r) (h : (chunks x r)[j]? = some c) :
    chunkAt x r j = c := by
  by_cases hx : x = []
  · subst hx
    have hc : c = [] := by simpa using List.mem_of_getElem? h
    simp [chunkAt, hc]
  · exact ((getElem?_chunks_eq_some_iff hx hr j).1 h).2

/-! ### The plaintext chunks and the micro-operations -/

/-- The chunks that the loop feeds back: its input for ENCRYPT, its output for DECRYPT. -/
def cryptPlaintexts (p : Profile) (d : Direction) (cs : List ByteString) (s : State) : List ByteString :=
  match d with
  | .encrypt => cs
  | .decrypt => cryptOutputs p .decrypt cs s

theorem cryptPlaintexts_cons (p : Profile) (d : Direction) (c : ByteString) (cs : List ByteString) (s : State) :
    cryptPlaintexts p d (c :: cs) s =
      plaintextOf d c (encryptedChunk c s) :: cryptPlaintexts p d cs (cryptStep p d c s) := by
  cases d <;> rfl

theorem length_plaintextOf (d : Direction) (c : ByteString) (s : State) :
    (plaintextOf d c (encryptedChunk c s)).length = c.length := by
  cases d with
  | encrypt => rfl
  | decrypt => exact length_encryptedChunk c s

theorem cryptOutputs_take (p : Profile) (d : Direction) (j : Nat) (cs : List ByteString) (s : State) :
    (cryptOutputs p d cs s).take j = cryptOutputs p d (cs.take j) s := by
  induction j generalizing cs s with
  | zero => rfl
  | succ j ih =>
    cases cs with
    | nil => rfl
    | cons c cs => rw [cryptOutputs, List.take_succ_cons, ih, List.take_succ_cons, cryptOutputs]

theorem cryptPlaintexts_take (p : Profile) (d : Direction) (j : Nat) (cs : List ByteString) (s : State) :
    (cryptPlaintexts p d cs s).take j = cryptPlaintexts p d (cs.take j) s := by
  cases d with
  | encrypt => rfl
  | decrypt => exact cryptOutputs_take p .decrypt j cs s

theorem cryptLoop_chk (p : Profile) (d : Direction) (cs : List ByteString) (s : State) :
    (eachChunk (cryptChunk p d) cs s).chk = s.chk + cs.length := by
  induction cs generalizing s with
  | nil => rfl
  | cons c cs ih =>
    rw [eachChunk, ih, State.nextChunk_chk, cryptChunk_chk, State.load_chk, List.length_cons]
    omega

/-- Output chunk `j` is that of the state which the chunks before it lead to. -/
theorem getElem?_cryptOutputs (p : Profile) (d : Direction) (j : Nat) (cs : List ByteString) (s : State) :
    (cryptOutputs p d cs s)[j]? =
      cs[j]?.map fun c => encryptedChunk c (eachChunk (cryptChunk p d) (cs.take j) s) := by
  induction cs generalizing s j with
  | nil => rfl
  | cons c cs ih =>
    cases j with
    | zero => rfl
    | succ j => exact ih j _

/-- In profile H one chunk is UP and DOWN_OVR of the plaintext, as far as the duplex state goes. -/
theorem cryptStep_agree (d : Direction) (c : ByteString) {s u : State} (h : DuplexAgree s u) :
    DuplexAgree (cryptStep hardware d c s)
      (downOvr (plaintextOf d c (encryptedChunk c s)) 0x00 (up (cuCrypt s.chk) u)) := by
  have hup := h.up (cuCrypt s.chk)
  have hagree := DuplexAgree.downOvr hup (plaintextOf d c (encryptedChunk c s)) 0x00
  exact ⟨hagree.lanes, hagree.phase, hagree.mode⟩

/-- The loop of ENCRYPT or DECRYPT and its micro-operations keep the duplex state in step. -/
theorem execAll_encryptMicroOps (d : Direction) {cs : List ByteString} (hcs : ∀ c ∈ cs, c.length ≤ 44) {s u : State}
    (h : DuplexAgree s u) {code : Byte} (hcode : code = cuCrypt s.chk) :
    ∃ v, execAll (encryptMicroOps code (cryptPlaintexts hardware d cs s)) u = .next v ∧
      DuplexAgree (eachChunk (cryptChunk hardware d) cs s) v := by
  induction cs generalizing s u code with
  | nil =>
    refine ⟨u, ?_, h⟩
    cases d <;> rfl
  | cons c cs ih =>
    obtain ⟨hc, hcs⟩ := List.forall_mem_cons.1 hcs
    have hlen : (plaintextOf d c (encryptedChunk c s)).length ≤ 44 := (length_plaintextOf d c s).trans_le hc
    have hchk : (cryptStep hardware d c s).chk = s.chk + 1 := by simp [cryptStep]
    obtain ⟨v, hv, hagree⟩ := ih hcs (cryptStep_agree d c h) (code := 0x00) (by simp [hchk, cuCrypt, cuCryptNext])
    refine ⟨v, ?_, hagree⟩
    rw [cryptPlaintexts_cons, encryptMicroOps, execAll_cons_next (exec_up code u),
      execAll_cons_next (exec_downOvr hlen 0x00 _), hcode]
    exact hv

/-! ### Both crypt commands -/

/-- The output of ENCRYPT or DECRYPT on `x`, a string as long as `x`. -/
def cryptOutput (d : Direction) (x : ByteString) (s : State) : ByteString :=
  (cryptOutputs hardware d (chunks x 16) s.beginCommand).flatten

theorem length_cryptOutput (d : Direction) (x : ByteString) (s : State) : (cryptOutput d x s).length = x.length :=
  length_flatten_cryptOutputs hardware d (by decide) x s.beginCommand

theorem chunks_cryptOutput (d : Direction) (x : ByteString) (s : State) :
    chunks (cryptOutput d x s) 16 = cryptOutputs hardware d (chunks x 16) s.beginCommand :=
  chunks_flatten_of_map_length (by decide) x _ (map_length_cryptOutputs hardware d _ _)

/-- The lanes end as after the micro-operations of all plaintext chunks. -/
theorem crypt_microOps (d : Direction) (x : ByteString) (s : State) :
    ∃ u, execAll (encryptMicroOps 0x80 (cryptPlaintexts hardware d (chunks x 16) s.beginCommand)) s = .next u ∧
      (eachChunk (cryptChunk hardware d) (chunks x 16) s.beginCommand).lanes = u.lanes := by
  have hcs : ∀ c ∈ chunks x 16, c.length ≤ 44 := fun c hc =>
    (length_le_of_mem_chunks (by decide) hc).trans (by decide)
  obtain ⟨u, hu, hagree⟩ := execAll_encryptMicroOps d hcs (duplexAgree_beginCommand s).symm (code := 0x80) rfl
  exact ⟨u, hu, hagree.lanes⟩

/-- Chunk `j` of the output is the input chunk XOR the leading bytes after the micro-operations of the plaintext chunks
before it and its own UP. -/
theorem crypt_output_chunk (d : Direction) (x : ByteString) (s : State) {j : Nat} {c : ByteString}
    (hc : (chunks x 16)[j]? = some c) :
    ∃ u, execAll (encryptMicroOps 0x80 ((cryptPlaintexts hardware d (chunks x 16) s.beginCommand).take j) ++
        [.up (if j = 0 then 0x80 else 0x00)]) s = .next u ∧
      ((cryptOutput d x s).drop (16 * j)).take 16 = List.zipWith (· ^^^ ·) c ((List.range c.length).map u.byte) := by
  have hcs : ∀ e ∈ (chunks x 16).take j, e.length ≤ 44 := fun e he =>
    (length_le_of_mem_chunks (by decide) (List.mem_of_mem_take he)).trans (by decide)
  obtain ⟨v, hv, hagree⟩ := execAll_encryptMicroOps d hcs (duplexAgree_beginCommand s).symm (code := 0x80) rfl
  have hj : j < (chunks x 16).length := (List.getElem?_eq_some_iff.1 hc).1
  have hchk : (eachChunk (cryptChunk hardware d) ((chunks x 16).take j) s.beginCommand).chk = j := by
    rw [cryptLoop_chk, State.beginCommand_chk, List.length_take_of_le hj.le, Nat.zero_add]
  have hout : (chunks (cryptOutput d x s) 16)[j]? =
      some (encryptedChunk c (eachChunk (cryptChunk hardware d) ((chunks x 16).take j) s.beginCommand)) := by
    rw [chunks_cryptOutput, getElem?_cryptOutputs, hc, Option.map_some]
  refine ⟨up (cuCrypt j) v, ?_, ?_⟩
  · rw [cryptPlaintexts_take, execAll_append_next hv]
    rfl
  · rw [Nat.mul_comm]
    refine (chunkAt_of_getElem? (by decide) hout).trans ?_
    rw [encryptedChunk, hchk, (hagree.up (cuCrypt j)).lead_eq, lead_eq_map_byte]
    rfl

theorem exec_encrypt_of_accepted {s : State} (herr : s.err = false) (hseq : s.seq = .kAd) (x : ByteString) :
    exec (.encrypt x) s = .next (complete (encryptBody hardware x) s) :=
  congrArg Host.Outcome.next (encryptCmd_of_kAd hardware x herr hseq)

theorem exec_decrypt_of_accepted {s : State} (herr : s.err = false) (hseq : s.seq = .kAd) (x : ByteString) :
    exec (.decrypt x) s = .next (complete (decryptBody hardware x) s) :=
  congrArg Host.Outcome.next (decryptCmd_of_kAd hardware x herr hseq)

/-- Settles O34. -/
theorem encryptRunsItsMicroOperations : Obligations.EncryptRunsItsMicroOperations := by
  intro x s herr hseq
  refine ⟨_, cryptOutput .encrypt x s, exec_encrypt_of_accepted herr hseq x, length_cryptOutput .encrypt x s,
    fun j c hc => crypt_output_chunk .encrypt x s hc, crypt_microOps .encrypt x s, ?_⟩
  exact (encrypt_sameBesidesLoop hardware x s).eq (complete_atBoundary _ s) (encrypt_phase s (by decide))
    (encrypt_seq s hardware x) (encrypt_respOut hardware x s)

/-- Settles O35: what DECRYPT feeds back are the chunks of its output. -/
theorem decryptFeedsBackThePlaintext : Obligations.DecryptFeedsBackThePlaintext := by
  intro x s herr hseq
  refine ⟨_, cryptOutput .decrypt x s, exec_decrypt_of_accepted herr hseq x, length_cryptOutput .decrypt x s, ?_⟩
  rw [chunks_cryptOutput]
  refine ⟨fun j c hc => crypt_output_chunk .decrypt x s hc, crypt_microOps .decrypt x s, ?_⟩
  exact (decrypt_sameBesidesLoop hardware x s).eq (complete_atBoundary _ s) (decrypt_phase s (by decide))
    (decrypt_seq s hardware x) (decrypt_respOut hardware x s)

/-- Settles O39: ENCRYPT's output is fixed by its response, and DECRYPT of it ends where ENCRYPT ended. -/
theorem decryptUndoesEncrypt : Obligations.DecryptUndoesEncrypt := by
  intro p x out s ⟨_, _, hr, _⟩ herr hseq hresp
  obtain ⟨ct, -, henc, hdec⟩ := decryptCmd_encryptCmd hr x herr hseq
  obtain rfl : ct = out := (List.cons.inj (List.append_cancel_left (henc.symm.trans hresp))).2
  rw [hdec]
  exact ⟨rfl, rfl, rfl, rfl⟩

end Sys2Proof.Machine
end

section
/-! PROOFS of 42_duplex_commands R157 and R158: the tag that SQUEEZE_TAG answers, and how VERIFY_TAG compares it. -/

namespace Sys2Proof.Machine

/-! ### The accumulator -/

/-- A bit of ACC is set exactly when it was set before or some byte compared differs in it. -/
theorem getLsbD_foldl_orAccStep (a : Lanes) (t : ByteString) (is : List Nat) (acc : Byte) (b : Nat) :
    (is.foldl (orAccStep a t) acc).getLsbD b = true ↔
      acc.getLsbD b = true ∨ ∃ i ∈ is, (a.byte i ^^^ t.getD i 0).getLsbD b = true := by
  induction is generalizing acc with
  | nil => simp
  | cons i is ih =>
    rw [List.foldl_cons, ih, orAccStep, BitVec.getLsbD_or, Bool.or_eq_true, List.exists_mem_cons_iff, or_assoc]

theorem verifyTag_acc (t : ByteString) (s : State) :
    (complete (verifyTagBody t) s).acc = (List.range 16).foldl (orAccStep (up cuSqueeze s).lanes t) 0 := rfl

/-- Bit `b` of ACC after VERIFY_TAG says whether some byte differs from the candidate in it. -/
theorem getLsbD_verifyTag_acc (t : ByteString) (s : State) (b : Nat) :
    (complete (verifyTagBody t) s).acc.getLsbD b = true ↔
      ∃ i < 16, ((up cuSqueeze s).byte i ^^^ t.getD i 0).getLsbD b = true := by
  rw [verifyTag_acc, getLsbD_foldl_orAccStep]
  simp [State.byte]

theorem byte_eq_zero_iff (x : Byte) : x = 0 ↔ ∀ b, ¬ x.getLsbD b = true := by
  constructor
  · rintro rfl b
    simp
  · intro h
    apply BitVec.eq_of_getLsbD_eq
    intro b _
    simpa using h b

/-- ACC stays 0 exactly when all 16 bytes are those of the candidate. -/
theorem verifyTag_acc_eq_zero_iff (t : ByteString) (s : State) :
    (complete (verifyTagBody t) s).acc = 0 ↔ ∀ i < 16, (up cuSqueeze s).byte i = t.getD i 0 := by
  have hbyte : ∀ i, (up cuSqueeze s).byte i = t.getD i 0 ↔
      ∀ b, ¬ ((up cuSqueeze s).byte i ^^^ t.getD i 0).getLsbD b = true := by
    intro i
    rw [← byte_eq_zero_iff]
    exact BitVec.xor_eq_zero_iff.symm
  simp only [byte_eq_zero_iff, getLsbD_verifyTag_acc, hbyte]
  constructor
  · intro h i hi b hbit
    exact h b ⟨i, hi, hbit⟩
  · rintro h b ⟨i, hi, hbit⟩
    exact h i hi b hbit

theorem tagOf_eq (s : State) : tagOf s = (List.range 16).map (up cuSqueeze s).byte :=
  lead_eq_map_byte 16 (up cuSqueeze s)

theorem getD_tagOf (s : State) {i : Nat} (hi : i < 16) : (tagOf s).getD i 0 = (up cuSqueeze s).byte i :=
  getD_lead 16 (up cuSqueeze s) hi

/-- ACC stays 0 exactly for the tag that SQUEEZE_TAG would answer. -/
theorem verifyTag_acc_eq_zero_iff_tagOf {t : ByteString} (ht : t.length = 16) (s : State) :
    (complete (verifyTagBody t) s).acc = 0 ↔ t = tagOf s := by
  rw [verifyTag_acc_eq_zero_iff]
  constructor
  · intro h
    refine List.ext_getElem (ht.trans (length_tagOf s).symm) fun i hi hi' => ?_
    have hbyte := (getD_tagOf s (by omega)).trans (h i (by omega))
    rw [List.getD_eq_getElem _ _ hi, List.getD_eq_getElem _ _ hi'] at hbyte
    exact hbyte.symm
  · rintro rfl i hi
    exact (getD_tagOf s hi).symm

theorem exec_squeezeTag_of_accepted {s : State} (herr : s.err = false) (hseq : s.seq = .kCrypt) :
    exec .squeezeTag s = .next (complete squeezeTagBody s) :=
  congrArg Host.Outcome.next (guarded_ok s _ ((prologue_squeezeTag s).2 ⟨herr, hseq⟩))

theorem exec_verifyTag_of_accepted {s : State} (herr : s.err = false) (hseq : s.seq = .kCrypt) {t : ByteString}
    (ht : t.length = 16) : exec (.verifyTag t) s = .next (complete (verifyTagBody t) s) :=
  congrArg Host.Outcome.next
    ((verifyTagCmd_of_prologue ((prologue_verifyTag s).2 ⟨herr, hseq⟩) t).trans (if_pos ht))

/-! ### A flipped bit -/

@[simp] theorem length_flipBit (x : ByteString) (i b : Nat) : (flipBit x i b).length = x.length :=
  List.length_set

theorem getD_flipBit {x : ByteString} {i : Nat} (hi : i < x.length) (b j : Nat) :
    (flipBit x i b).getD j 0 = x.getD j 0 ^^^ (if j = i then 1#8 <<< b else 0) := by
  by_cases hj : j = i
  · subst hj
    simp [flipBit, List.getD_eq_getElem?_getD, hi]
  · simp [flipBit, List.getD_eq_getElem?_getD, hj, List.getElem?_set_ne (Ne.symm hj)]

/-- The tag with one bit flipped leaves that bit in ACC. -/
theorem verifyTag_acc_flipBit (s : State) {i : Nat} (hi : i < 16) (b : Nat) :
    (complete (verifyTagBody (flipBit (tagOf s) i b)) s).acc = 1#8 <<< b := by
  have hdiff : ∀ j < 16, (up cuSqueeze s).byte j ^^^ (flipBit (tagOf s) i b).getD j 0 =
      if j = i then 1#8 <<< b else 0 := by
    intro j hj
    rw [getD_flipBit (by rwa [length_tagOf]), getD_tagOf s hj, ← BitVec.xor_assoc, BitVec.xor_self, BitVec.zero_xor]
  apply BitVec.eq_of_getLsbD_eq
  intro n _
  rw [Bool.eq_iff_iff, getLsbD_verifyTag_acc]
  constructor
  · rintro ⟨j, hj, hbit⟩
    rw [hdiff j hj] at hbit
    split at hbit
    · exact hbit
    · simp at hbit
  · intro hbit
    exact ⟨i, hi, by rw [hdiff i hi, if_pos rfl]; exact hbit⟩

/-! ### The obligations -/

/-- Settles O36. -/
theorem squeezeTagEmitsSixteenBytes : Obligations.SqueezeTagEmitsSixteenBytes := by
  intro s herr hseq
  refine ⟨_, _, exec_squeezeTag_of_accepted herr hseq, exec_up 0x40 s, rfl, ?_⟩
  have hresp := squeezeTag_respOut s
  rw [tagOf_eq] at hresp
  exact SameBesidesLoop.eq ⟨rfl, rfl, rfl, rfl, rfl, rfl, rfl⟩ (complete_atBoundary _ s) rfl rfl hresp

/-- Settles O37. -/
theorem verifyTagComparesAllBytes : Obligations.VerifyTagComparesAllBytes := by
  intro tag s herr hseq
  constructor
  · intro ht
    refine ⟨_, _, exec_verifyTag_of_accepted herr hseq ht, exec_up 0x40 s, rfl,
      fun b _ => getLsbD_verifyTag_acc tag s b, ?valid, ?frame⟩
    case valid =>
      rw [verifyTag_valid, validOf, beq_iff_eq, verifyTag_acc_eq_zero_iff_tagOf ht, tagOf_eq]
      rfl
    case frame =>
      have hresp := verifyTag_respOut tag s
      rw [show s.respOut ++ [0x00, if (complete (verifyTagBody tag) s).valid = true then 0x01 else 0x00] =
        (complete (verifyTagBody tag) s).respOut from hresp.symm]
      rfl
  · intro ht
    have hargs : argumentsOk (.verifyTag tag) = false := by simpa [argumentsOk] using ht
    exact exec_verifyTag_of_not_argumentsOk rfl (by decide) ((prologue_verifyTag s).2 ⟨herr, hseq⟩) hargs

/-- Settles O38: the tag answered is the candidate, so the flipped bit is the only difference. -/
theorem flippedTagBitIsSeen : Obligations.FlippedTagBitIsSeen := by
  intro tag i b s t herr hseq hi hb ht hresp
  obtain rfl := Host.Outcome.next.inj ((exec_squeezeTag_of_accepted herr hseq).symm.trans ht)
  obtain rfl : tagOf s = tag :=
    (List.cons.inj (List.append_cancel_left ((squeezeTag_respOut s).symm.trans hresp))).2
  have hlen : (flipBit (tagOf s) i b).length = 16 := by rw [length_flipBit, length_tagOf, tagLen]
  have hacc := verifyTag_acc_flipBit s hi b
  have hvalid : (complete (verifyTagBody (flipBit (tagOf s) i b)) s).valid = false := by
    rw [verifyTag_valid, hacc]
    interval_cases b <;> rfl
  have hresp' := verifyTag_respOut (flipBit (tagOf s) i b) s
  rw [← verifyTag_valid, hvalid] at hresp'
  exact ⟨_, exec_verifyTag_of_accepted herr hseq hlen, hacc, hvalid, (verifyTag_err s _).trans herr, hresp'⟩

end Sys2Proof.Machine
end

section
/-! PROOFS of 43_protocol_sequences R180 to R182 and R187 (a), and of 00_scope R12: the pseudo-commands complete from
every state, their answers depend on their operands only, and where the profiles agree. -/

namespace Sys2Proof.Machine

/-! ### HASH -/

/-- The state in which HASH squeezes (43_protocol_sequences R180). -/
def afterMessage (p : Profile) (m : ByteString) (s : State) : State := absorbCmd p m (initHashCmd s)

theorem initHashCmd_eq_rebase (s : State) :
    initHashCmd s = (initHashCmd State.reset).rebase s.respOut s.cmdIn s.trace s.resets := by
  have htrace : (initHashCmd s).trace = s.trace ++ (initHashCmd State.reset).trace := (List.append_nil s.trace).symm
  rw [State.rebase, ← htrace]
  rfl

theorem afterMessage_eq_rebase (p : Profile) (m : ByteString) (s : State) :
    afterMessage p m s = (afterMessage p m State.reset).rebase s.respOut s.cmdIn s.trace s.resets := by
  rw [afterMessage, initHashCmd_eq_rebase, absorbCmd_rebase, afterMessage]

/-- INIT_HASH and ABSORB are both accepted. -/
theorem afterMessage_accepted (p : Profile) (m : ByteString) (s : State) :
    (afterMessage p m s).err = false ∧ (afterMessage p m s).seq = .hAbs ∧ (afterMessage p m s).mode = .hash ∧
      (afterMessage p m s).respOut = s.respOut ++ [statusOk, statusOk] ∧ (afterMessage p m s).cmdIn = s.cmdIn := by
  have hinit : initHashCmd s = complete initHashBody s := rfl
  rw [afterMessage, hinit, absorbCmd, guarded_ok _ _ ((prologue_absorb _).2 (by simp))]
  simp [absorb_seq]

theorem squeezeCmd_of_hAbs (p : Profile) (l : Nat) {s : State} (herr : s.err = false) (hseq : s.seq = .hAbs) :
    squeezeCmd p l s = complete (squeezeBody p l) s :=
  guarded_ok s _ ((prologue_squeeze s).2 ⟨herr, hseq⟩)

/-- The digest of a message. -/
def digestOf (m : ByteString) : ByteString :=
  (squeezeStream 2 (up cuSqueeze (afterMessage hardware m State.reset))).take digestLen

theorem length_digestOf (m : ByteString) : (digestOf m).length = digestLen :=
  List.length_take_of_le (by rw [length_squeezeStream]; decide)

theorem hashSeq_eq (p : Profile) (m : ByteString) (s : State) :
    hashSeq p m s = complete (squeezeBody p digestLen) (afterMessage p m s) := by
  obtain ⟨herr, hseq, -⟩ := afterMessage_accepted p m s
  exact squeezeCmd_of_hAbs p digestLen herr hseq

theorem hashSeq_respOut (m : ByteString) (s : State) :
    (hashSeq hardware m s).respOut = s.respOut ++ [0x00, 0x00, 0x00] ++ digestOf m := by
  obtain ⟨-, -, -, hresp, -⟩ := afterMessage_accepted hardware m s
  have hagree : DuplexAgree (afterMessage hardware m s) (afterMessage hardware m State.reset) := by
    rw [afterMessage_eq_rebase]
    exact ⟨rfl, rfl, rfl⟩
  rw [hashSeq_eq, squeeze_respOut hardware (by decide : digestLen ≤ 16 * 2), squeezeStream_congr (hagree.up cuSqueeze),
    hresp, ← digestOf]
  simp [statusOk]

/-- Settles O41. -/
theorem hashDependsOnTheMessageOnly : Obligations.HashDependsOnTheMessageOnly := by
  intro m
  refine ⟨digestOf m, length_digestOf m, fun s => ⟨hashSeq hardware m s, rfl, hashSeq_respOut m s, ?_⟩⟩
  obtain ⟨herr, hseq, hmode, -, hcmdIn⟩ := afterMessage_accepted hardware m s
  refine ⟨by simp [hashResult, answered, hashSeq_respOut], ?_⟩
  rw [hashSeq_eq, squeeze_seq, squeeze_phase, squeeze_mode, squeeze_err, squeeze_cmdIn]
  exact ⟨rfl, rfl, hmode, herr, hcmdIn⟩

/-! ### AEAD -/

theorem afterAd_mode {key nonce : ByteString} (hkey : key.length = keyLen) (hnonce : nonce.length = nonceLen)
    (p : Profile) (ad : ByteString) (s : State) : (afterAd p key nonce ad s).mode = .keyed := by
  have hinit : initKeyedCmd key nonce s = complete (initKeyedBody key nonce) s := if_pos ⟨hkey, hnonce⟩
  rw [afterAd, hinit, absorbCmd, guarded_ok _ _ ((prologue_absorb _).2 (by simp)), absorb_mode, initKeyed_mode]

theorem squeezeTagCmd_of_kCrypt {s : State} (herr : s.err = false) (hseq : s.seq = .kCrypt) :
    squeezeTagCmd s = complete squeezeTagBody s :=
  guarded_ok s _ ((prologue_squeezeTag s).2 ⟨herr, hseq⟩)

theorem verifyTagCmd_of_kCrypt {t : ByteString} (ht : t.length = tagLen) {s : State} (herr : s.err = false)
    (hseq : s.seq = .kCrypt) : verifyTagCmd t s = complete (verifyTagBody t) s :=
  (verifyTagCmd_of_prologue ((prologue_verifyTag s).2 ⟨herr, hseq⟩) t).trans (if_pos ht)

/-- ENCRYPT and SQUEEZE_TAG in a state that accepts them. -/
theorem encrypt_squeezeTag_of_kAd (p : Profile) (pt : ByteString) {s : State} (herr : s.err = false)
    (hseq : s.seq = .kAd) :
    squeezeTagCmd (encryptCmd p pt s) = complete squeezeTagBody (complete (encryptBody p pt) s) := by
  rw [encryptCmd_of_kAd p pt herr hseq]
  exact squeezeTagCmd_of_kCrypt (by rw [encrypt_err, herr]) (encrypt_seq s p pt)

/-- DECRYPT and VERIFY_TAG in a state that accepts them. -/
theorem decrypt_verifyTag_of_kAd (p : Profile) (ct : ByteString) {tag : ByteString} (htag : tag.length = tagLen)
    {s : State} (herr : s.err = false) (hseq : s.seq = .kAd) :
    verifyTagCmd tag (decryptCmd p ct s) = complete (verifyTagBody tag) (complete (decryptBody p ct) s) := by
  rw [decryptCmd_of_kAd p ct herr hseq]
  exact verifyTagCmd_of_kCrypt htag (by rw [decrypt_err, herr]) (decrypt_seq s p ct)

/-- Settles O42: what the commands do from the reset state they do from every state. -/
theorem aeadEncAnswersCiphertextAndTag : Obligations.AeadEncAnswersCiphertextAndTag := by
  intro key nonce ad pt hkey hnonce
  obtain ⟨herr, hseq, hstart⟩ := afterAd_accepted hkey hnonce hardware ad State.reset
  obtain ⟨ct, tag, hct, htag, henc, -⟩ := crypt_and_tag_roundTrip (by decide : 0 < hardware.rKcrypt) pt herr hseq
  refine ⟨ct, tag, hct, htag, fun s => ⟨aeadEncSeq hardware key nonce ad pt s, ?_⟩⟩
  have hresp : (aeadEncSeq hardware key nonce ad pt s).respOut =
      s.respOut ++ [statusOk, statusOk, statusOk] ++ ct ++ statusOk :: tag := by
    simp [aeadEncSeq_eq_rebase hkey hnonce, henc, hstart]
  have hargs : encArgumentsOk key nonce = true := (encArgumentsOk_iff key nonce).2 ⟨hkey, hnonce⟩
  refine ⟨congrArg Host.Outcome.next (if_pos hargs), hresp, aeadEncResult_of_respOut hkey hnonce hct hresp, ?_⟩
  rw [aeadEncSeq_eq_rebase hkey hnonce, encrypt_squeezeTag_of_kAd hardware pt herr hseq]
  refine ⟨rfl, rfl, ?_, ?_, rfl⟩
  · simp [afterAd_mode hkey hnonce]
  · simp [herr]

/-- Settles O43: what the commands do from the reset state they do from every state. -/
theorem aeadDecAnswersPlaintextAndValidity : Obligations.AeadDecAnswersPlaintextAndValidity := by
  intro key nonce tag ad ct hkey hnonce htag
  obtain ⟨herr, hseq, hstart⟩ := afterAd_accepted hkey hnonce hardware ad State.reset
  let start := afterAd hardware key nonce ad State.reset
  let last := complete (verifyTagBody tag) (complete (decryptBody hardware ct) start)
  have hlast : ∀ s, aeadDecSeq hardware key nonce tag ad ct s = last.rebase s.respOut s.cmdIn s.trace s.resets := by
    intro s
    rw [aeadDecSeq_eq_rebase hkey hnonce, decrypt_verifyTag_of_kAd hardware ct htag herr hseq]
  have hpt := length_cryptOutput .decrypt ct start
  refine ⟨cryptOutput .decrypt ct start, last.valid, hpt, fun s =>
    ⟨aeadDecSeq hardware key nonce tag ad ct s, ?_⟩⟩
  have hresp : (aeadDecSeq hardware key nonce tag ad ct s).respOut =
      s.respOut ++ [statusOk, statusOk, statusOk] ++ cryptOutput .decrypt ct start ++
        [statusOk, validByte last.valid] := by
    have hlastResp : last.respOut =
        start.respOut ++ statusOk :: cryptOutput .decrypt ct start ++ [statusOk, validByte last.valid] := by
      rw [verifyTag_respOut, decrypt_respOut]
      rfl
    rw [hlast, State.rebase_respOut, hlastResp, hstart]
    simp
  have hargs : decArgumentsOk key nonce tag = true := (decArgumentsOk_iff key nonce tag).2 ⟨hkey, hnonce, htag⟩
  refine ⟨congrArg Host.Outcome.next (if_pos hargs), hresp,
    aeadDecResult_of_respOut hkey hnonce htag hpt last.valid hresp, ?_⟩
  rw [hlast]
  refine ⟨rfl, rfl, rfl, ?_, ?_, rfl⟩
  · simp [last, start, afterAd_mode hkey hnonce]
  · simp [last, start, herr]

/-! ### Where the profiles agree (00_scope R12) -/

theorem absorbCmd_congr {p q : Profile} {x : ByteString} {s : State}
    (h : absorbBody p x s.beginCommand = absorbBody q x s.beginCommand) : absorbCmd p x s = absorbCmd q x s := by
  unfold absorbCmd guarded
  cases prologueFault .absorb s with
  | some f => rfl
  | none => exact congrArg State.endCommand h

theorem absorbChunk_of_chk_eq_zero (p : Profile) {s : State} (h : s.chk = 0) :
    absorbChunk p s = down s.staging cdAbsFirst (ensureUp s) := by
  rw [absorbChunk, h]
  rfl

/-- A single chunk takes the code of the first, which is the same in every profile. -/
theorem absorbCmd_congr_of_le {p q : Profile} {x : ByteString} {s : State} (hp : x.length ≤ rate p s.mode .absorb)
    (hq : x.length ≤ rate q s.mode .absorb) : absorbCmd p x s = absorbCmd q x s := by
  refine absorbCmd_congr ?_
  unfold absorbBody
  have hchk : (s.beginCommand.load x).chk = 0 := rfl
  rw [State.beginCommand_mode, chunks_of_length_le hp, chunks_of_length_le hq]
  simp only [eachChunk, absorbChunk_of_chk_eq_zero _ hchk]

/-- H and PUB have the same rate in Hash mode, and the same codes. -/
theorem absorbCmd_H_eq_PUB {s : State} (hmode : s.mode = .hash) (x : ByteString) :
    absorbCmd profileH x s = absorbCmd profilePUB x s := by
  have hrate : rate profileH .hash .absorb = rate profilePUB .hash .absorb := rfl
  have hchunk : absorbChunk profileH = absorbChunk profilePUB := rfl
  refine absorbCmd_congr ?_
  unfold absorbBody
  rw [State.beginCommand_mode, hmode, hrate, hchunk]

theorem absorbCmd_LIT_eq_H {s : State} (hmode : s.mode = .hash) {x : ByteString} (hx : x.length ≤ 16) :
    absorbCmd profileLIT x s = absorbCmd profileH x s :=
  absorbCmd_congr_of_le (by rw [hmode]; exact hx) (by rw [hmode]; exact hx)

theorem absorbCmd_mode (p : Profile) (x : ByteString) (s : State) : (absorbCmd p x s).mode = s.mode := by
  unfold absorbCmd guarded
  cases prologueFault .absorb s with
  | some f => exact raise_mode s f
  | none => exact absorb_mode s p x

/-- Profiles that agree on each ABSORB in Hash mode agree on the whole sequence. -/
theorem hashModeRun_congr {p q : Profile} {ms : List ByteString}
    (h : ∀ m ∈ ms, ∀ t : State, t.mode = .hash → absorbCmd p m t = absorbCmd q m t) (l : Nat) (s : State) :
    hashModeRun p ms l s = hashModeRun q ms l s := by
  have hfold : ∀ t : State, t.mode = .hash →
      ms.foldl (fun t m => absorbCmd p m t) t = ms.foldl (fun t m => absorbCmd q m t) t := by
    induction ms with
    | nil =>
      intro t _
      rw [List.foldl_nil, List.foldl_nil]
    | cons m ms ih =>
      intro t ht
      rw [List.foldl_cons, List.foldl_cons, h m List.mem_cons_self t ht]
      exact ih (fun m hm => h m (List.mem_cons_of_mem _ hm)) _ ((absorbCmd_mode q m t).trans ht)
  exact congrArg (squeezeCmd q l) (hfold _ (initHash_mode s))

/-! An AEAD encryption of the empty plaintext: the one chunk is empty, so it makes no difference whether FEEDBACK
overwrites or XORs. -/

theorem feedBack_nil_lanes (p : Profile) (s : State) : (feedBack p [] s).lanes = padAndCode 0 cdCrypt s.lanes := by
  have hcode : downCode s.mode cdCrypt = cdCrypt := by cases s.mode <;> rfl
  unfold feedBack
  cases p.cryptFeedback with
  | overwrite => exact downOvr_lanes s [] cdCrypt
  | xor => exact (down_lanes s [] cdCrypt).trans (by rw [hcode]; rfl)

theorem encrypt_nil_agree (p q : Profile) (s : State) :
    DuplexAgree (complete (encryptBody p []) s) (complete (encryptBody q []) s) where
  lanes := (feedBack_nil_lanes p _).trans (feedBack_nil_lanes q _).symm
  phase := (feedBack_phase _ p []).trans (feedBack_phase _ q []).symm
  mode := (encrypt_mode s p []).trans (encrypt_mode s q []).symm

theorem afterAd_congr {p q : Profile} {key nonce ad : ByteString} (hkey : key.length = keyLen)
    (hnonce : nonce.length = nonceLen) (hp : ad.length ≤ p.rKabs) (hq : ad.length ≤ q.rKabs) (s : State) :
    afterAd p key nonce ad s = afterAd q key nonce ad s := by
  have hmode : (initKeyedCmd key nonce s).mode = .keyed := by rw [initKeyedCmd, if_pos ⟨hkey, hnonce⟩, initKeyed_mode]
  exact absorbCmd_congr_of_le (by rwa [hmode]) (by rwa [hmode])

theorem aeadEncSeq_nil_respOut (p : Profile) {key nonce : ByteString} (hkey : key.length = keyLen)
    (hnonce : nonce.length = nonceLen) (ad : ByteString) (s : State) :
    (aeadEncSeq p key nonce ad [] s).respOut =
      (afterAd p key nonce ad s).respOut ++ [statusOk] ++
        statusOk :: tagOf (complete (encryptBody p []) (afterAd p key nonce ad s)) := by
  obtain ⟨herr, hseq, -⟩ := afterAd_accepted hkey hnonce p ad s
  rw [aeadEncSeq, ← afterAd, encrypt_squeezeTag_of_kAd p [] herr hseq, squeezeTag_respOut, encrypt_respOut]
  rfl

/-- Associated data of one chunk and an empty plaintext leave no room for the profiles to differ. -/
theorem aeadEncResult_nil_congr {p q : Profile} {ad : ByteString} (hp : ad.length ≤ p.rKabs)
    (hq : ad.length ≤ q.rKabs) (key nonce : ByteString) (s : State) :
    aeadEncResult p key nonce ad [] s = aeadEncResult q key nonce ad [] s := by
  by_cases h : encArgumentsOk key nonce = true
  · obtain ⟨hkey, hnonce⟩ := (encArgumentsOk_iff key nonce).1 h
    have hresp : (aeadEncSeq p key nonce ad [] s).respOut = (aeadEncSeq q key nonce ad [] s).respOut := by
      rw [aeadEncSeq_nil_respOut p hkey hnonce, aeadEncSeq_nil_respOut q hkey hnonce,
        afterAd_congr hkey hnonce hp hq]
      exact congrArg (_ ++ statusOk :: ·) (((encrypt_nil_agree p q _).up cuSqueeze).lead_eq tagLen)
    rw [aeadEncResult, aeadEncResult, if_pos h, if_pos h, answered, answered, hresp]
  · rw [aeadEncResult, aeadEncResult, if_neg h, if_neg h]

/-- Settles O58: each clause is the profiles agreeing on every ABSORB, or on the one chunk of an encryption. -/
theorem hAndPubHashAlikeLitShortAllEncryptEmptyAlike :
    Obligations.HAndPubHashAlikeLitShortAllEncryptEmptyAlike := by
  have hpub : ∀ ms l s, hashModeRun profileH ms l s = hashModeRun profilePUB ms l s := fun _ =>
    hashModeRun_congr fun m _ _ ht => absorbCmd_H_eq_PUB ht m
  have hlit : ∀ ms l s, (∀ m ∈ ms, m.length ≤ 16) → hashModeRun profileLIT ms l s = hashModeRun profileH ms l s :=
    fun _ l s hms => hashModeRun_congr (fun m hm _ ht => absorbCmd_LIT_eq_H ht (hms m hm)) l s
  refine ⟨fun x _ h => absorbCmd_H_eq_PUB h x, fun _ _ h hx => absorbCmd_LIT_eq_H h hx, fun _ _ _ _ => rfl, hpub, hlit,
    fun m s => hpub [m] digestLen s, fun m s hm => hlit [m] digestLen s (by simpa using hm),
    fun key nonce ad s had => ⟨?_, ?_⟩⟩
  · exact aeadEncResult_nil_congr had (had.trans (by decide)) key nonce s
  · exact aeadEncResult_nil_congr had had key nonce s

end Sys2Proof.Machine
end

section
/-! PROOFS of 42_duplex_commands R161 and R162: the record of primitives of each command, as a function of the command's
public shape and of PHASE alone; how many permutations it holds, and that control and response length are public too. -/

namespace Sys2Proof.Machine

/-! ### What each loop records -/

/-- The lengths of the chunks that CHUNKS cuts from `n` bytes. -/
def chunkLengths (n r : Nat) : List Nat :=
  if n = 0 then [0] else (List.range (ceilDiv n r)).map fun j => min r (n - j * r)

theorem map_length_chunks (x : ByteString) (r : Nat) : (chunks x r).map List.length = chunkLengths x.length r := by
  by_cases hx : x = []
  · subst hx
    rfl
  · rw [chunkLengths, if_neg (by simpa using hx), chunks_of_ne_nil hx, List.map_map]
    exact List.map_congr_left fun j _ => length_chunkAt x r j

/-- What ABSORB records for chunks of the lengths given, from chunk `j` on. -/
def absorbRecord (p : Profile) : Phase → (j : Nat) → List Nat → List Prim
  | _, _, [] => []
  | .up, j, n :: ns => .down n (cdAbsorb p j) :: absorbRecord p .down (j + 1) ns
  | .down, j, n :: ns => .up cuBlank :: .down n (cdAbsorb p j) :: absorbRecord p .down (j + 1) ns

/-- What FEEDBACK of `n` bytes records. -/
def feedBackPrim (p : Profile) (n : Nat) : Prim :=
  match p.cryptFeedback with
  | .overwrite => .downOvr n cdCrypt
  | .xor => .down n cdCrypt

/-- What ENCRYPT and DECRYPT record for chunks of the lengths given, from chunk `j` on. -/
def cryptRecord (p : Profile) : (j : Nat) → List Nat → List Prim
  | _, [] => []
  | j, n :: ns => .up (cuCrypt j) :: .lead n :: feedBackPrim p n :: cryptRecord p (j + 1) ns

/-- What `k` further blocks of SQUEEZE record, with `l` bytes still to emit. -/
def squeezeRecord : (k l : Nat) → List Prim
  | 0, _ => []
  | k + 1, l => .down 0 cdBlank :: .up cuBlank :: .lead (min l rHash) :: squeezeRecord k (l - min l rHash)

theorem ensureUp_trace (s : State) :
    (ensureUp s).trace = s.trace ++ (match s.phase with | .down => [.up cuBlank] | .up => []) := by
  cases h : s.phase with
  | down => rw [ensureUp_of_down h, up_trace]
  | up => rw [ensureUp_of_up h, List.append_nil]

theorem absorbLoop_trace (p : Profile) (cs : List ByteString) (s : State) :
    (eachChunk (absorbChunk p) cs s).trace = s.trace ++ absorbRecord p s.phase s.chk (cs.map List.length) := by
  induction cs generalizing s with
  | nil => simp [eachChunk, absorbRecord]
  | cons c cs ih =>
    have hstep : (absorbChunk p (s.load c)).nextChunk.trace =
        (ensureUp (s.load c)).trace ++ [.down c.length (cdAbsorb p s.chk)] := down_trace _ _ _
    rw [eachChunk, ih, hstep, ensureUp_trace]
    cases h : s.phase <;> simp [h, absorbRecord]

theorem feedBack_trace (p : Profile) (x : ByteString) (s : State) :
    (feedBack p x s).trace = s.trace ++ [feedBackPrim p x.length] := by
  unfold feedBack feedBackPrim
  cases p.cryptFeedback with
  | overwrite => exact downOvr_trace s x cdCrypt
  | xor => exact down_trace s x cdCrypt

theorem cryptStep_trace (p : Profile) (d : Direction) (c : ByteString) (s : State) :
    (cryptStep p d c s).trace = s.trace ++ [.up (cuCrypt s.chk), .lead c.length, feedBackPrim p c.length] := by
  have hlen := length_plaintextOf d c s
  have hfeed := feedBack_trace p (plaintextOf d c (encryptedChunk c s))
    (((up (cuCrypt s.chk) (s.load c)).note (.lead c.length)).emit (encryptedChunk c s))
  rw [hlen] at hfeed
  refine hfeed.trans ?_
  simp

theorem cryptLoop_trace (p : Profile) (d : Direction) (cs : List ByteString) (s : State) :
    (eachChunk (cryptChunk p d) cs s).trace = s.trace ++ cryptRecord p s.chk (cs.map List.length) := by
  induction cs generalizing s with
  | nil => simp [eachChunk, cryptRecord]
  | cons c cs ih =>
    have hchk : (cryptStep p d c s).chk = s.chk + 1 := by simp [cryptStep]
    rw [eachChunk, ← cryptStep, ih, cryptStep_trace, hchk]
    simp [cryptRecord]

theorem squeezeBlocks_trace (k l : Nat) (s : State) :
    (squeezeBlocks k l s).trace = s.trace ++ squeezeRecord k l := by
  induction k generalizing l s with
  | zero => simp [squeezeBlocks, squeezeRecord]
  | succ k ih =>
    rw [squeezeBlocks, ih]
    simp [squeezeRecord]

/-! ### What each command records -/

/-- The record of an accepted command of the shape given, in the PHASE it finds. -/
def shapeRecord : CmdKind × List Nat → Phase → List Prim
  | (.initKeyed, [klen, nlen]), _ => [.down (klen + nlen + 1) cdKey]
  | (.absorb, [n]), p => absorbRecord hardware p 0 (chunkLengths n 16)
  | (.squeeze, [l]), _ =>
    .up cuSqueeze :: .lead (min l 16) :: squeezeRecord (ceilDiv (l - min l 16) 16) (l - min l 16)
  | (.encrypt, [n]), _ => cryptRecord hardware 0 (chunkLengths n 16)
  | (.decrypt, [n]), _ => cryptRecord hardware 0 (chunkLengths n 16)
  | (.squeezeTag, []), _ => [.up cuSqueeze, .lead tagLen]
  | (.verifyTag, [_]), _ => .up cuSqueeze :: (List.range tagLen).map .orAcc
  | _, _ => []

theorem crypt_trace (d : Direction) (x : ByteString) (s : State) :
    (eachChunk (cryptChunk hardware d) (chunks x 16) s.beginCommand).trace =
      s.trace ++ cryptRecord hardware 0 (chunkLengths x.length 16) := by
  rw [cryptLoop_trace, map_length_chunks]
  rfl

theorem commandBody_trace {i : Instr} {shape : CmdKind × List Nat} (h : i.shape = some shape) (s : State) :
    (complete (commandBody i) s).trace = s.trace ++ shapeRecord shape s.phase := by
  cases i <;> cases h
  case initHash => exact (List.append_nil _).symm
  case initKeyed key nonce => simp [commandBody, complete, initKeyedBody, keyBlock, shapeRecord, Nat.add_assoc]
  case absorb x =>
    have hloop := absorbLoop_trace hardware (chunks x 16) s.beginCommand
    rw [map_length_chunks] at hloop
    simpa [commandBody, complete, absorbBody, shapeRecord] using hloop
  case squeeze l =>
    have hblocks := squeezeBlocks_trace (ceilDiv (l - min l 16) 16) (l - min l 16)
      (emitLead (min l 16) (up cuSqueeze s.beginCommand))
    simpa [commandBody, complete, squeezeBody, shapeRecord] using hblocks
  case encrypt x => exact crypt_trace .encrypt x s
  case decrypt x => exact crypt_trace .decrypt x s
  case squeezeTag => exact squeezeTag_trace s
  case verifyTag t => exact verifyTag_trace s t

/-! ### How many permutations -/

theorem countP_absorbRecord_down (p : Profile) (j : Nat) (ns : List Nat) :
    (absorbRecord p .down j ns).countP Prim.isUp = ns.length := by
  induction ns generalizing j with
  | nil => rfl
  | cons n ns ih => simp [absorbRecord, List.countP_cons, Prim.isUp, ih]

/-- While PHASE is Up the first chunk needs no UP. -/
theorem countP_absorbRecord (p : Profile) (phase : Phase) (j : Nat) (ns : List Nat) :
    (absorbRecord p phase j ns).countP Prim.isUp = ns.length - (if phase = .up then 1 else 0) := by
  cases phase with
  | down => exact countP_absorbRecord_down p j ns
  | up =>
    cases ns with
    | nil => rfl
    | cons n ns => simp [absorbRecord, Prim.isUp, countP_absorbRecord_down]

theorem isUp_feedBackPrim (p : Profile) (n : Nat) : (feedBackPrim p n).isUp = false := by
  unfold feedBackPrim
  cases p.cryptFeedback <;> rfl

theorem countP_cryptRecord (p : Profile) (j : Nat) (ns : List Nat) :
    (cryptRecord p j ns).countP Prim.isUp = ns.length := by
  induction ns generalizing j with
  | nil => rfl
  | cons n ns ih =>
    rw [cryptRecord, List.countP_cons, List.countP_cons, List.countP_cons, isUp_feedBackPrim, ih]
    rfl

theorem countP_squeezeRecord (k l : Nat) : (squeezeRecord k l).countP Prim.isUp = k := by
  induction k generalizing l with
  | zero => rfl
  | succ k ih => simp [squeezeRecord, List.countP_cons, Prim.isUp, ih]

theorem length_chunkLengths (n : Nat) : (chunkLengths n 16).length = max 1 ((n + 15) / 16) := by
  by_cases hn : n = 0
  · subst hn
    rfl
  · rw [chunkLengths, if_neg hn, List.length_map, List.length_range, ceilDiv]
    omega

theorem countP_shapeRecord_squeeze (l : Nat) (p : Phase) :
    (shapeRecord (.squeeze, [l]) p).countP Prim.isUp = max 1 ((l + 15) / 16) := by
  have hcount : ceilDiv (l - min l 16) 16 + 1 = max 1 ((l + 15) / 16) := by
    rw [ceilDiv]
    omega
  rw [← hcount]
  simp [shapeRecord, List.countP_cons, Prim.isUp, countP_squeezeRecord]

theorem permutations_of_trace {s t : State} {rec : List Prim} (h : t.trace = s.trace ++ rec) :
    t.permutations = s.permutations + rec.countP Prim.isUp := by
  rw [State.permutations, h, List.countP_append, State.permutations]

/-! ### What is public of a command -/

theorem command?_of_shape {i : Instr} {shape : CmdKind × List Nat} (h : i.shape = some shape) :
    i.command? = some shape.1 := by
  cases i <;> cases h <;> rfl

theorem exists_shape_of_isCommand {i : Instr} (h : i.isCommand = true) : ∃ shape, i.shape = some shape := by
  cases i <;> simp_all [Instr.isCommand, Instr.command?, Instr.shape]

/-- The length check as a function of the shape. -/
def shapeArgumentsOk : CmdKind × List Nat → Bool
  | (.initKeyed, [klen, nlen]) => klen == 16 && nlen == 16
  | (.verifyTag, [n]) => n == 16
  | _ => true

theorem argumentsOk_of_shape {i : Instr} {shape : CmdKind × List Nat} (h : i.shape = some shape) :
    argumentsOk i = shapeArgumentsOk shape := by
  cases i <;> cases h <;> rfl

/-- The payload length as a function of the shape. -/
def shapeResponseBytes : CmdKind × List Nat → Nat
  | (.squeeze, [l]) => l
  | (.encrypt, [n]) => n
  | (.decrypt, [n]) => n
  | (.squeezeTag, []) => 16
  | (.verifyTag, [_]) => 1
  | _ => 0

theorem responseBytes_of_shape {i : Instr} {shape : CmdKind × List Nat} (h : i.shape = some shape) :
    responseBytes i = shapeResponseBytes shape := by
  cases i <;> cases h <;> rfl

/-- SEQ after an accepted command, by MODE where ABSORB asks for it. -/
def seqAfter : CmdKind → Mode → Seq
  | .initHash, _ => .hInit
  | .initKeyed, _ => .kInit
  | .absorb, .hash => .hAbs
  | .absorb, .keyed => .kAd
  | .encrypt, _ => .kCrypt
  | .decrypt, _ => .kCrypt
  | .squeeze, _ => .done
  | .squeezeTag, _ => .done
  | .verifyTag, _ => .done

theorem commandBody_seqAfter {i : Instr} {k : CmdKind} (hk : i.command? = some k) (s : State) :
    (complete (commandBody i) s).seq = seqAfter k s.mode := by
  cases i <;> cases hk
  case absorb x =>
    refine (absorb_seq s hardware x).trans ?_
    cases s.mode <;> rfl
  all_goals simp [commandBody, seqAfter]

/-- Whether and how a command faults is the same for the same length check. -/
theorem commandFault_congr {i j : Instr} (h : argumentsOk i = argumentsOk j) (k : CmdKind) (err : Bool) (q : Seq) :
    commandFault i k err q = commandFault j k err q := by
  simp only [commandFault, h]

/-- Two accepted runs of the same shape under the same public control record, control and answer alike. -/
theorem complete_commandBody_public {i j : Instr} {shape : CmdKind × List Nat} (hi : i.shape = some shape)
    (hj : j.shape = some shape) {s s' : State} (hacc : CommandAccepted i shape.1 s)
    (hacc' : CommandAccepted j shape.1 s') (hcontrol : s.control = s'.control) (htrace : s.trace = s'.trace)
    (hlen : s.respOut.length = s'.respOut.length) :
    (complete (commandBody i) s).trace = (complete (commandBody j) s').trace ∧
      (complete (commandBody i) s).control = (complete (commandBody j) s').control ∧
      (complete (commandBody i) s).respOut.length = (complete (commandBody j) s').respOut.length := by
  have hki := command?_of_shape hi
  have hkj := command?_of_shape hj
  obtain ⟨hmode, hseq, hphase, herr⟩ : s.mode = s'.mode ∧ s.seq = s'.seq ∧ s.phase = s'.phase ∧ s.err = s'.err := by
    simpa [State.control] using hcontrol
  refine ⟨?trace, ?control, ?length⟩
  case trace => rw [commandBody_trace hi, commandBody_trace hj, htrace, hphase]
  case control =>
    simp only [State.control, commandBody_mode hki, commandBody_mode hkj, commandBody_seqAfter hki,
      commandBody_seqAfter hkj, commandBody_phase hki, commandBody_phase hkj, commandBody_err hki hacc,
      commandBody_err hkj hacc', hmode]
  case length =>
    obtain ⟨out, hresp, hout⟩ := commandBody_respOut hki s
    obtain ⟨out', hresp', hout'⟩ := commandBody_respOut hkj s'
    have hsame : out.length = out'.length := by
      rw [hout, hout', responseBytes_of_shape hi, responseBytes_of_shape hj]
    simp [hresp, hresp', hlen, hsame]

/-- A fault records nothing and answers one byte, whatever the state holds. -/
theorem raise_public (f : Raised) {s s' : State} (hcontrol : s.control = s'.control) (htrace : s.trace = s'.trace)
    (hlen : s.respOut.length = s'.respOut.length) :
    (raise f s).trace = (raise f s').trace ∧ (raise f s).control = (raise f s').control ∧
      (raise f s).respOut.length = (raise f s').respOut.length := by
  simp_all [State.control]

/-! ### The obligations -/

/-- Settles O54: a command that leaves ERR = 0 was accepted; its UPs are counted on the record of its shape. -/
theorem permutationsPerCommand : Obligations.PermutationsPerCommand := by
  intro i s t hcmd hexec herr
  obtain ⟨shape, hshape⟩ := exists_shape_of_isCommand hcmd
  have hk := command?_of_shape hshape
  cases hf : commandFault i shape.1 s.err s.seq with
  | some f =>
    obtain rfl := Host.Outcome.next.inj ((exec_of_commandFault hk hf).symm.trans hexec)
    simp at herr
  | none =>
    obtain rfl := Host.Outcome.next.inj ((exec_of_commandFault_eq_none hk hf).symm.trans hexec)
    rw [permutations_of_trace (commandBody_trace hshape s)]
    congr 1
    cases i
    case absorb x => cases hshape; exact (countP_absorbRecord _ _ _ _).trans (by rw [length_chunkLengths])
    case squeeze l => cases hshape; exact countP_shapeRecord_squeeze l s.phase
    case encrypt x => cases hshape; exact (countP_cryptRecord _ _ _).trans (length_chunkLengths _)
    case decrypt x => cases hshape; exact (countP_cryptRecord _ _ _).trans (length_chunkLengths _)
    all_goals cases hshape <;> rfl

/-- Settles O55: the same fault or none, and then all that is public follows from the shape and the control. -/
theorem controlIsPublic : Obligations.ControlIsPublic := by
  intro i j s s' t t' hcmd hshape hcontrol htrace hlen hexec hexec'
  obtain ⟨shape, hi⟩ := exists_shape_of_isCommand hcmd
  have hj := hshape.symm.trans hi
  have hki := command?_of_shape hi
  have hkj := command?_of_shape hj
  have hargs : argumentsOk i = argumentsOk j := by rw [argumentsOk_of_shape hi, argumentsOk_of_shape hj]
  have hsame : commandFault i shape.1 s.err s.seq = commandFault j shape.1 s'.err s'.seq := by
    obtain ⟨-, hseq, -, herr⟩ : s.mode = s'.mode ∧ s.seq = s'.seq ∧ s.phase = s'.phase ∧ s.err = s'.err := by
      simpa [State.control] using hcontrol
    rw [commandFault_congr hargs, hseq, herr]
  cases hf : commandFault i shape.1 s.err s.seq with
  | some f =>
    obtain rfl := Host.Outcome.next.inj ((exec_of_commandFault hki hf).symm.trans hexec)
    obtain rfl := Host.Outcome.next.inj ((exec_of_commandFault hkj (hsame.symm.trans hf)).symm.trans hexec')
    exact raise_public f hcontrol htrace hlen
  | none =>
    have hf' := hsame.symm.trans hf
    obtain rfl := Host.Outcome.next.inj ((exec_of_commandFault_eq_none hki hf).symm.trans hexec)
    obtain rfl := Host.Outcome.next.inj ((exec_of_commandFault_eq_none hkj hf').symm.trans hexec')
    exact complete_commandBody_public hi hj ((commandFault_eq_none_iff hki).1 hf) ((commandFault_eq_none_iff hkj).1 hf')
      hcontrol htrace hlen

end Sys2Proof.Machine
end
